-- ==== Sys2Proof/Word.lean ====
section
/-! DEFINITION. The word types of CHIP8-CORE (spec/00_scope.md R6, R9): bytes, 16-bit words, 12-bit address fields
and register selectors, and the numeric constants the source fixes. Every quantity is unsigned. -/

namespace Sys2Proof

/-- An 8-bit value: a general register, the delay timer, a memory byte, the immediate `kk`. -/
abbrev Byte := BitVec 8

/-- A 16-bit value: `I`, `pc`, a call-stack slot, an instruction word. -/
abbrev Word := BitVec 16

/-- The 12-bit address field `nnn`. -/
abbrev Addr := BitVec 12

/-- One 4-bit nibble of an instruction word. -/
abbrev Nibble := BitVec 4

/-- A register selector, `0..15`: every value names a register (spec/10_state.md R21). -/
abbrev RegIx := Fin 16

/-- `MEM_SIZE` (R6): addresses are `0 .. 4095`. -/
abbrev memSize : Nat := 4096

/-- `FLAG_REG` (R6): the register `VF`. -/
abbrev flagReg : RegIx := 15

end Sys2Proof
end

