-- ==== Sys2Proof/Machine/Flags.lean ====
section
/-! DEFINITION. The values written to the flag register (spec/10_state.md R37), each 0 or 1 and each computed from the operands before any
wrap (spec/43_load_alu.md R140). -/

namespace Sys2Proof.Machine

/-- A bit as a register value. -/
def flagOfBit (b : Bool) : Byte := if b then 1 else 0

/-- add-registers: 1 when the unbounded sum exceeds 255 (R147). -/
def carryFlag (a b : Byte) : Byte := flagOfBit (decide (255 < a.toNat + b.toNat))

/-- sub and subn: 0 when `minuend < subtrahend`, else 1 (R148, R150). -/
def notBorrowFlag (minuend subtrahend : Byte) : Byte := flagOfBit (decide (¬ minuend.toNat < subtrahend.toNat))

/-- shift-right: bit 0 of the operand (R149). -/
def lowBitFlag (a : Byte) : Byte := flagOfBit (a.getLsbD 0)

/-- shift-left: bit 7 of the operand, as 0 or 1 (R151). -/
def highBitFlag (a : Byte) : Byte := flagOfBit (a.getLsbD 7)

/-- draw: 1 when the display reports a collision (R181). -/
def collisionFlag (collided : Bool) : Byte := flagOfBit collided

end Sys2Proof.Machine
end

