-- ==== Sys2Proof/Syntax.lean ====
section
/-! DEFINITION. The syntax: the nine decoded fields of an instruction word (spec/30_encoding.md R81), the 33 instructions
(R85, one constructor per row of spec/opcode_table.json, in the table's order), and the shape of a row of the opcode map. -/

namespace Sys2Proof

/-- The structured descriptor that Decode makes of every word (R81). All nine fields are extracted from every word; several
of them are the same bits. -/
structure Descriptor where
  op1 : Nibble
  op2 : Nibble
  op3 : Nibble
  op4 : Nibble
  x : RegIx
  y : RegIx
  nnn : Addr
  kk : Byte
  n : Nibble
deriving DecidableEq, Repr

/-- The 33 defined instructions (R85). `x`, `y` select registers; `nnn`, `kk`, `n` are unsigned immediates (R83). SHR and SHL
keep the `y` field that their words carry and that they ignore (R82, R149, R151). -/
inductive Instr where
  /-- clear-screen, `00E0`, R183. -/
  | cls
  /-- return, `00EE`, R122. -/
  | ret
  /-- jump, `1nnn`, R120. -/
  | jp (nnn : Addr)
  /-- call, `2nnn`, R121. -/
  | call (nnn : Addr)
  /-- skip-if-equal, `3xkk`, R130. -/
  | seb (x : RegIx) (kk : Byte)
  /-- skip-if-not-equal, `4xkk`, R131. -/
  | sneb (x : RegIx) (kk : Byte)
  /-- skip-if-registers-equal, `5xy0`, R132. -/
  | ser (x y : RegIx)
  /-- load-immediate, `6xkk`, R141. -/
  | ldb (x : RegIx) (kk : Byte)
  /-- add-immediate, `7xkk`, R142. -/
  | addb (x : RegIx) (kk : Byte)
  /-- copy, `8xy0`, R143. -/
  | mov (x y : RegIx)
  /-- or, `8xy1`, R144. -/
  | or (x y : RegIx)
  /-- and, `8xy2`, R145. -/
  | and (x y : RegIx)
  /-- xor, `8xy3`, R146. -/
  | xor (x y : RegIx)
  /-- add-registers, `8xy4`, R147. -/
  | add (x y : RegIx)
  /-- sub, `8xy5`, R148. -/
  | sub (x y : RegIx)
  /-- shift-right, `8xy6`, R149. -/
  | shr (x y : RegIx)
  /-- subn, `8xy7`, R150. -/
  | subn (x y : RegIx)
  /-- shift-left, `8xyE`, R151. -/
  | shl (x y : RegIx)
  /-- skip-if-registers-not-equal, `9xy0`, R133. -/
  | sner (x y : RegIx)
  /-- load-index, `Annn`, R160. -/
  | ldi (nnn : Addr)
  /-- jump-offset, `Bnnn`, R123. -/
  | jpv0 (nnn : Addr)
  /-- random, `Cxkk`, R182. -/
  | rnd (x : RegIx) (kk : Byte)
  /-- draw, `Dxyn`, R181. -/
  | drw (x y : RegIx) (n : Nibble)
  /-- skip-if-key-down, `Ex9E`, R134. -/
  | skp (x : RegIx)
  /-- skip-if-key-up, `ExA1`, R135. -/
  | sknp (x : RegIx)
  /-- load-delay-timer, `Fx07`, R170. -/
  | lddt (x : RegIx)
  /-- await-key, `Fx0A`, R184. -/
  | wkey (x : RegIx)
  /-- set-delay-timer, `Fx15`, R171. -/
  | stdt (x : RegIx)
  /-- add-to-index, `Fx1E`, R161. -/
  | addi (x : RegIx)
  /-- load-font-address, `Fx29`, R162. -/
  | font (x : RegIx)
  /-- store-bcd, `Fx33`, R163. -/
  | bcd (x : RegIx)
  /-- store-registers, `Fx55`, R164. -/
  | stm (x : RegIx)
  /-- load-registers, `Fx65`, R165. -/
  | ldm (x : RegIx)
deriving DecidableEq, Repr

/-- The mnemonic of R85, as spec/opcode_table.json spells it. -/
def Instr.mnemonic : Instr → String
  | .cls => "CLS" | .ret => "RET" | .jp _ => "JP" | .call _ => "CALL"
  | .seb _ _ => "SEB" | .sneb _ _ => "SNEB" | .ser _ _ => "SER" | .ldb _ _ => "LDB"
  | .addb _ _ => "ADDB" | .mov _ _ => "MOV" | .or _ _ => "OR" | .and _ _ => "AND"
  | .xor _ _ => "XOR" | .add _ _ => "ADD" | .sub _ _ => "SUB" | .shr _ _ => "SHR"
  | .subn _ _ => "SUBN" | .shl _ _ => "SHL" | .sner _ _ => "SNER" | .ldi _ => "LDI"
  | .jpv0 _ => "JPV0" | .rnd _ _ => "RND" | .drw _ _ _ => "DRW" | .skp _ => "SKP"
  | .sknp _ => "SKNP" | .lddt _ => "LDDT" | .wkey _ => "WKEY" | .stdt _ => "STDT"
  | .addi _ => "ADDI" | .font _ => "FONT" | .bcd _ => "BCD" | .stm _ => "STM" | .ldm _ => "LDM"

/-- One row of the opcode map (R85): a word `w` selects it exactly when `w &&& mask = pattern`. -/
structure OpcodeRow where
  mnemonic : String
  mask : Word
  pattern : Word
deriving DecidableEq, Repr

/-- Why a byte sequence is no instruction. -/
inductive DecodeError where
  /-- Fewer than the two bytes every instruction has (R80). -/
  | truncated
  /-- A word that selects no row: UNKNOWN (R87). The machine runs it as a no-op. -/
  | unknown (w : Word)
deriving DecidableEq, Repr

end Sys2Proof
end

