-- ==== Sys2Proof/Decode.lean ====
section
/-! DEFINITION. Decode and encode (spec/30_encoding.md). Decode is total: a word is one of the 33 instructions or UNKNOWN (R84, R87).
PRESUMED (log 7): the numbers of thirty of the thirty-three patterns are the spec's own, from general knowledge (its GK1, D5); each fixed
nibble must match exactly (its D6). -/

namespace Sys2Proof

/-- Fetch's byte order: `(high_byte << 8) | low_byte`, the byte at the lower address first (spec/20_memory.md R53). -/
def wordOfBytes (hi lo : Byte) : Word := hi ++ lo

/-- A word as it lies in memory, the high byte at the lower address (R53, R80). -/
def bytesOfWord (w : Word) : List Byte := [w.extractLsb' 8 8, w.extractLsb' 0 8]

/-- The nine fields of a word (R81). -/
def describe (w : Word) : Descriptor where
  op1 := w.extractLsb' 12 4
  op2 := w.extractLsb' 8 4
  op3 := w.extractLsb' 4 4
  op4 := w.extractLsb' 0 4
  x := (w.extractLsb' 8 4).toFin
  y := (w.extractLsb' 4 4).toFin
  nnn := w.extractLsb' 0 12
  kk := w.extractLsb' 0 8
  n := w.extractLsb' 0 4

/-- Dispatch on the nibble tuple `(op1, op2, op3, op4)` (R84, R85). `none` is UNKNOWN (R87). -/
def dispatch (d : Descriptor) : Option Instr :=
  match d.op1.toNat, d.op2.toNat, d.op3.toNat, d.op4.toNat with
  | 0x0, 0x0, 0xE, 0x0 => some .cls
  | 0x0, 0x0, 0xE, 0xE => some .ret
  | 0x1, _, _, _ => some (.jp d.nnn)
  | 0x2, _, _, _ => some (.call d.nnn)
  | 0x3, _, _, _ => some (.seb d.x d.kk)
  | 0x4, _, _, _ => some (.sneb d.x d.kk)
  | 0x5, _, _, 0x0 => some (.ser d.x d.y)
  | 0x6, _, _, _ => some (.ldb d.x d.kk)
  | 0x7, _, _, _ => some (.addb d.x d.kk)
  | 0x8, _, _, 0x0 => some (.mov d.x d.y)
  | 0x8, _, _, 0x1 => some (.or d.x d.y)
  | 0x8, _, _, 0x2 => some (.and d.x d.y)
  | 0x8, _, _, 0x3 => some (.xor d.x d.y)
  | 0x8, _, _, 0x4 => some (.add d.x d.y)
  | 0x8, _, _, 0x5 => some (.sub d.x d.y)
  | 0x8, _, _, 0x6 => some (.shr d.x d.y)
  | 0x8, _, _, 0x7 => some (.subn d.x d.y)
  | 0x8, _, _, 0xE => some (.shl d.x d.y)
  | 0x9, _, _, 0x0 => some (.sner d.x d.y)
  | 0xA, _, _, _ => some (.ldi d.nnn)
  | 0xB, _, _, _ => some (.jpv0 d.nnn)
  | 0xC, _, _, _ => some (.rnd d.x d.kk)
  | 0xD, _, _, _ => some (.drw d.x d.y d.n)
  | 0xE, _, 0x9, 0xE => some (.skp d.x)
  | 0xE, _, 0xA, 0x1 => some (.sknp d.x)
  | 0xF, _, 0x0, 0x7 => some (.lddt d.x)
  | 0xF, _, 0x0, 0xA => some (.wkey d.x)
  | 0xF, _, 0x1, 0x5 => some (.stdt d.x)
  | 0xF, _, 0x1, 0xE => some (.addi d.x)
  | 0xF, _, 0x2, 0x9 => some (.font d.x)
  | 0xF, _, 0x3, 0x3 => some (.bcd d.x)
  | 0xF, _, 0x5, 0x5 => some (.stm d.x)
  | 0xF, _, 0x6, 0x5 => some (.ldm d.x)
  | _, _, _, _ => none

/-- The instruction a word selects, or `none` for UNKNOWN (R84, R87, R105). -/
def decodeWord (w : Word) : Option Instr := dispatch (describe w)

/-- Decode the instruction at the front of a byte sequence and return the rest; a rejection says why. -/
def decode : List Byte → Except DecodeError (Instr × List Byte)
  | hi :: lo :: rest =>
    match decodeWord (wordOfBytes hi lo) with
    | some i => .ok (i, rest)
    | none => .error (.unknown (wordOfBytes hi lo))
  | _ => .error .truncated

/-! ### The encoder (R82, R85), one line per row of the opcode map -/

/-- A word from its four nibbles, most significant first. -/
def wordOfNibbles (a b c d : Nibble) : Word := a ++ (b ++ (c ++ d))

/-- The nibble that selects a register. -/
def selector (x : RegIx) : Nibble := BitVec.ofFin x

/-- Format `A`: one fixed nibble and the 12-bit address. -/
def encodeA (op : Nibble) (nnn : Addr) : Word := op ++ nnn

/-- Format `XK`: one fixed nibble, a selector, a byte. -/
def encodeXK (op : Nibble) (x : RegIx) (kk : Byte) : Word := op ++ (selector x ++ kk)

/-- Formats `XY` and `XYN`: one fixed nibble, two selectors, one more nibble. -/
def encodeXYN (op : Nibble) (x y : RegIx) (n : Nibble) : Word :=
  wordOfNibbles op (selector x) (selector y) n

/-- Format `X`: a fixed nibble, a selector, two fixed nibbles. -/
def encodeX (op : Nibble) (x : RegIx) (c d : Nibble) : Word := wordOfNibbles op (selector x) c d

/-- The word of an instruction (R85). -/
def encode : Instr → Word
  | .cls => wordOfNibbles 0x0 0x0 0xE 0x0
  | .ret => wordOfNibbles 0x0 0x0 0xE 0xE
  | .jp nnn => encodeA 0x1 nnn
  | .call nnn => encodeA 0x2 nnn
  | .seb x kk => encodeXK 0x3 x kk
  | .sneb x kk => encodeXK 0x4 x kk
  | .ser x y => encodeXYN 0x5 x y 0x0
  | .ldb x kk => encodeXK 0x6 x kk
  | .addb x kk => encodeXK 0x7 x kk
  | .mov x y => encodeXYN 0x8 x y 0x0
  | .or x y => encodeXYN 0x8 x y 0x1
  | .and x y => encodeXYN 0x8 x y 0x2
  | .xor x y => encodeXYN 0x8 x y 0x3
  | .add x y => encodeXYN 0x8 x y 0x4
  | .sub x y => encodeXYN 0x8 x y 0x5
  | .shr x y => encodeXYN 0x8 x y 0x6
  | .subn x y => encodeXYN 0x8 x y 0x7
  | .shl x y => encodeXYN 0x8 x y 0xE
  | .sner x y => encodeXYN 0x9 x y 0x0
  | .ldi nnn => encodeA 0xA nnn
  | .jpv0 nnn => encodeA 0xB nnn
  | .rnd x kk => encodeXK 0xC x kk
  | .drw x y n => encodeXYN 0xD x y n
  | .skp x => encodeX 0xE x 0x9 0xE
  | .sknp x => encodeX 0xE x 0xA 0x1
  | .lddt x => encodeX 0xF x 0x0 0x7
  | .wkey x => encodeX 0xF x 0x0 0xA
  | .stdt x => encodeX 0xF x 0x1 0x5
  | .addi x => encodeX 0xF x 0x1 0xE
  | .font x => encodeX 0xF x 0x2 0x9
  | .bcd x => encodeX 0xF x 0x3 0x3
  | .stm x => encodeX 0xF x 0x5 0x5
  | .ldm x => encodeX 0xF x 0x6 0x5

/-- The two bytes of an instruction as they lie in memory. -/
def encodeBytes (i : Instr) : List Byte := bytesOfWord (encode i)

/-! ### The opcode map as R85 prints it: masks and matches -/

/-- Rows 1 to 9 of R85. -/
def opcodeRowsLow : List OpcodeRow :=
  [⟨"CLS", 0xFFFF, 0x00E0⟩, ⟨"RET", 0xFFFF, 0x00EE⟩, ⟨"JP", 0xF000, 0x1000⟩, ⟨"CALL", 0xF000, 0x2000⟩,
   ⟨"SEB", 0xF000, 0x3000⟩, ⟨"SNEB", 0xF000, 0x4000⟩, ⟨"SER", 0xF00F, 0x5000⟩, ⟨"LDB", 0xF000, 0x6000⟩,
   ⟨"ADDB", 0xF000, 0x7000⟩]

/-- Rows 10 to 18 of R85. -/
def opcodeRowsAlu : List OpcodeRow :=
  [⟨"MOV", 0xF00F, 0x8000⟩, ⟨"OR", 0xF00F, 0x8001⟩, ⟨"AND", 0xF00F, 0x8002⟩, ⟨"XOR", 0xF00F, 0x8003⟩,
   ⟨"ADD", 0xF00F, 0x8004⟩, ⟨"SUB", 0xF00F, 0x8005⟩, ⟨"SHR", 0xF00F, 0x8006⟩, ⟨"SUBN", 0xF00F, 0x8007⟩,
   ⟨"SHL", 0xF00F, 0x800E⟩]

/-- Rows 19 to 25 of R85. -/
def opcodeRowsMid : List OpcodeRow :=
  [⟨"SNER", 0xF00F, 0x9000⟩, ⟨"LDI", 0xF000, 0xA000⟩, ⟨"JPV0", 0xF000, 0xB000⟩, ⟨"RND", 0xF000, 0xC000⟩,
   ⟨"DRW", 0xF000, 0xD000⟩, ⟨"SKP", 0xF0FF, 0xE09E⟩, ⟨"SKNP", 0xF0FF, 0xE0A1⟩]

/-- Rows 26 to 33 of R85. -/
def opcodeRowsF : List OpcodeRow :=
  [⟨"LDDT", 0xF0FF, 0xF007⟩, ⟨"WKEY", 0xF0FF, 0xF00A⟩, ⟨"STDT", 0xF0FF, 0xF015⟩, ⟨"ADDI", 0xF0FF, 0xF01E⟩,
   ⟨"FONT", 0xF0FF, 0xF029⟩, ⟨"BCD", 0xF0FF, 0xF033⟩, ⟨"STM", 0xF0FF, 0xF055⟩, ⟨"LDM", 0xF0FF, 0xF065⟩]

/-- All 33 rows of R85, in the table's order. -/
def opcodeRows : List OpcodeRow := opcodeRowsLow ++ opcodeRowsAlu ++ opcodeRowsMid ++ opcodeRowsF

/-- `w` selects the row (R85). -/
def OpcodeRow.selects (r : OpcodeRow) (w : Word) : Bool := w &&& r.mask == r.pattern

/-- The instruction whose bits, numbered as spec/opcode_table.json numbers them, are `w`: the bits above `nbits` are zero, the word is laid
out high byte first, and the decoder reads it. -/
def decodeTableWord (nbits w : Nat) : Option Instr :=
  match decode (bytesOfWord (BitVec.ofNat 16 (w % 2 ^ nbits))) with
  | .ok (i, _) => some i
  | .error _ => none

end Sys2Proof
end

