-- ==== Sys2Proof/Config.lean ====
section
/-! DEFINITION. What an instance of the hardware fixes (the parameters of spec/00_scope.md R7) and what the spec leaves
open in every cycle (the collaborators' answers and the host's ticks: R109, R173, spec/92_eei_decisions.md D17, D21).
The default parameter values stand in Machine/Defaults.lean. -/

namespace Sys2Proof

/-- The parameters of R7 that the source leaves to the host. They are fixed for one machine: State holds them in
`config`, which nothing writes, so that a claim may fix a parameter or quantify over it. -/
structure Config where
  /-- `ENTRY`: the reset value of `pc` and the address a program is loaded at (D2). -/
  entry : Word
  /-- `STACK_CAPACITY`: the number of call-stack slots (D3). -/
  stackCapacity : Nat
  /-- `FONT_BASE`: the address of glyph 0 (D4). -/
  fontBase : Nat
  /-- `FONT`: the bytes that reset writes from `fontBase` on (D4, R232). -/
  font : List Byte
deriving DecidableEq, Repr

/-- The input `in` of one cycle (R101): what the collaborators answer IF this cycle asks them (R109: at most one request
a cycle), and how many ticks the host invokes between this cycle and the next (R173). Nothing constrains any of them. -/
structure CycleInput where
  /-- The answer to `Rng.next_byte()`. -/
  randomByte : Byte
  /-- The answer to `Display.draw_sprite(...)`: did a pixel collide. -/
  collided : Bool
  /-- The answer to `Keypad.is_key_down(k)`, for the `k` the cycle asks about. -/
  keyDown : Bool
  /-- The answer to `Keypad.any_key_down()`: nothing, or a key index. -/
  anyKey : Option Byte
  /-- The number of ticks after this cycle and before the next. -/
  ticks : Nat
deriving DecidableEq, Repr, Inhabited

/-- DESIGN CHOICE (log 3, log 4). THE FREE VALUE: the input of cycle number `n`, where State lists none. It has no body: no
proof can learn anything of it, so a claim that holds, holds for every answer and every tick schedule. -/
opaque Config.freeInput : Nat → CycleInput

end Sys2Proof
end

