-- ==== Sys2Proof/Machine/Defaults.lean ====
section
/-! DEFINITION. The default parameters of the spec (spec/00_scope.md R7, D2 to D4) and what memory holds after reset
(spec/10_state.md R39, spec/70_reset_and_hazards.md R231, R232). -/

namespace Sys2Proof.Machine

/-- PRESUMED (log 2). Glyphs `0` to `7` of the default font (R232; the spec takes the bytes from general knowledge, GK2). -/
def fontLow : List Byte :=
  [0xF0, 0x90, 0x90, 0x90, 0xF0] ++ [0x20, 0x60, 0x20, 0x20, 0x70] ++ [0xF0, 0x10, 0xF0, 0x80, 0xF0] ++
  [0xF0, 0x10, 0xF0, 0x10, 0xF0] ++ [0x90, 0x90, 0xF0, 0x10, 0x10] ++ [0xF0, 0x80, 0xF0, 0x10, 0xF0] ++
  [0xF0, 0x80, 0xF0, 0x90, 0xF0] ++ [0xF0, 0x10, 0x20, 0x40, 0x40]

/-- PRESUMED (log 2). Glyphs `8` to `F` of the default font (R232, GK2). -/
def fontHigh : List Byte :=
  [0xF0, 0x90, 0xF0, 0x90, 0xF0] ++ [0xF0, 0x90, 0xF0, 0x10, 0xF0] ++ [0xF0, 0x90, 0xF0, 0x90, 0x90] ++
  [0xE0, 0x90, 0xE0, 0x90, 0xE0] ++ [0xF0, 0x80, 0x80, 0x80, 0xF0] ++ [0xE0, 0x90, 0x90, 0x90, 0xE0] ++
  [0xF0, 0x80, 0xF0, 0x80, 0xF0] ++ [0xF0, 0x80, 0xF0, 0x80, 0x80]

/-- The default parameters (R7): `ENTRY = 512`, `STACK_CAPACITY = 16`, the font of R232 at address 0. Log 1, log 2. -/
def defaultConfig : Config where
  entry := 0x200
  stackCapacity := 16
  fontBase := 0
  font := fontLow ++ fontHigh

/-- The byte that address `a` holds right after reset (R39, R231): a font byte, or zero. It is also what an address that
`State.mem` does not list reads as (log 13). -/
def resetByte (c : Config) (a : Nat) : Byte :=
  if c.fontBase ≤ a then c.font.getD (a - c.fontBase) 0 else 0

end Sys2Proof.Machine
end

