-- ==== Sys2Proof/Machine/State.lean ====
section
/-! DEFINITION. The state of the machine (spec/10_state.md R20), the reasons a cycle can stop (spec/60_exceptions.md R200), the
requests to the collaborators (spec/46_collaborators.md R180), and the state after reset (R39). -/

namespace Sys2Proof.Machine

/-- The fatal conditions of R200. A fault is the spec's `Failed(kind)`: the cycle changed nothing, `pc` included, and made no request
(R107, R207), so the fault carries no state; `State.cycle` in Machine/HostOps.lean gives back the state the cycle began with. -/
inductive Fault where
  /-- Raised by fetch, DRW, BCD, STM, LDM when an access leaves `0..4095` (R201). The spec's own failure. Safe. -/
  | outOfBounds
  /-- Raised by CALL when `sp` is `STACK_CAPACITY` (R202). The spec's own failure. Safe. -/
  | stackOverflow
  /-- Raised by RET when `sp` is 0 (R203). The spec's own failure. Safe. -/
  | stackUnderflow
deriving DecidableEq, Repr

/-- Instructions the model gives no meaning. -/
inductive Refusal where
  /-- Raised only by an arm of `exec` whose instruction has no meaning yet, by its mnemonic. Safe. No arm raises it now. -/
  | notModelled (mnemonic : String)
deriving DecidableEq, Repr

/-- A request of the CORE to a collaborator (R180). -/
inductive Request where
  /-- `Display.clear()`. -/
  | clear
  /-- `Display.draw_sprite(x, y, bytes)`: raw coordinates, the bytes in address order. -/
  | drawSprite (x y : Byte) (sprite : List Byte)
  /-- `Rng.next_byte()`. -/
  | nextByte
  /-- `Keypad.is_key_down(key)`, the key index unmasked. -/
  | isKeyDown (key : Byte)
  /-- `Keypad.any_key_down()`. -/
  | anyKeyDown
deriving DecidableEq, Repr

/-- Memory as a list of (address, byte) pairs. Its canonical form is `Memory.wf` of Machine/Ops.lean; an address it does not list reads
as `resetByte` says. -/
abbrev Memory := List Host.Cell

/-- The Processor State (R20): exactly what the spec gives the machine, under the spec's names. -/
structure Processor where
  /-- The sixteen general registers; `V[15]` is the flag register (R21, R22). -/
  V : Vector Byte 16
  /-- The index register (R29). -/
  I : Word
  /-- The address of the next instruction to fetch (R25). -/
  pc : Word
  /-- The `STACK_CAPACITY` call-stack slots, slot 0 first (R31). -/
  stack : List Word
  /-- The index of the next free slot, `0 .. STACK_CAPACITY` (R30). -/
  sp : Nat
  /-- The delay timer (R32). -/
  dt : Byte
  /-- The memory of 4096 bytes (R40, R50). -/
  mem : Memory
deriving DecidableEq, Repr

/-- The whole state: the Processor State, the parameters of this machine, and the MODEL's own fields for the input and output side of a
cycle (R101, R109). -/
structure State extends Processor where
  /-- The parameters of this machine (R7). Nothing writes them. Log 1. -/
  config : Config
  /-- The MODEL's own: the inputs of the coming cycles, oldest first. When it is empty the input is the free value
  `Config.freeInput cycleNo`. DESIGN CHOICE, log 3. -/
  inputs : List CycleInput
  /-- The MODEL's own: the counter that the free value is applied to. DESIGN CHOICE, log 3. -/
  cycleNo : Nat
  /-- The MODEL's own: a cycle has been invoked since reset, failed or not, so the loader's write port is closed (D1, R66). DESIGN CHOICE, log 15. -/
  started : Bool
  /-- Output: the request that the latest cycle made (R109). DESIGN CHOICE, log 5. -/
  request : Option Request
  /-- Output: the word that the latest cycle reported as UNKNOWN (R106, R108). DESIGN CHOICE, log 5. -/
  unknown : Option Word
deriving DecidableEq, Repr

/-- What executing an instruction answers. -/
abbrev Result := Host.Outcome State Fault Refusal

/-- The state after reset of a machine with the parameters `c` (R39, R231). Memory lists nothing: every address reads as `resetByte c`. -/
def State.initial (c : Config) : State where
  V := Vector.replicate 16 0
  I := 0
  pc := c.entry
  stack := List.replicate c.stackCapacity 0
  sp := 0
  dt := 0
  mem := []
  config := c
  inputs := []
  cycleNo := 0
  started := false
  request := none
  unknown := none

/-- The machine right after reset, with the spec's default parameters (R7, R39). -/
def State.reset : State := State.initial defaultConfig

end Sys2Proof.Machine
end

