-- ==== Sys2Proof/Machine/Ops.lean ====
section
/-! DEFINITION. The operations every meaning is written over: registers, memory, the call stack, the program counter, the requests to
the collaborators, and raising a failure. Every read and write of the state goes through them. -/

namespace Sys2Proof.Machine

/-! ### Failures -/

/-- `raise <Failure>` (spec/40_cycle.md R107, spec/60_exceptions.md R207): the one way a cycle fails. The machine has no handler,
saves nothing and changes nothing; control returns to the host. -/
def raise (f : Fault) : Result := .fault f

/-! ### Memory as a list (spec/20_memory.md R50, R57) -/

/-- The byte at `a`: the listed one, or the background's. -/
def Memory.read (bg : Nat → Byte) : Memory → Nat → Byte
  | [], a => bg a
  | c :: m, a => if c.1 = a then c.2 else Memory.read bg m a

/-- Put a cell into a list sorted by address. -/
def Memory.insert : Memory → Host.Cell → Memory
  | [], c => [c]
  | d :: m, c => if c.1 < d.1 then c :: d :: m else d :: Memory.insert m c

/-- Take every entry for `a` out. -/
def Memory.erase (m : Memory) (a : Nat) : Memory := m.filter fun c => c.1 ≠ a

/-- Write one byte: an entry equal to what an unlisted address reads as is not listed. -/
def Memory.write (bg : Nat → Byte) (m : Memory) (a : Nat) (v : Byte) : Memory :=
  if v = bg a then Memory.erase m a else Memory.insert (Memory.erase m a) (a, v)

/-- The canonical form: addresses strictly rising and inside `0..4095`, no entry equal to what an unlisted address reads as. -/
abbrev Memory.wf (bg : Nat → Byte) (m : Memory) : Prop :=
  m.Pairwise (fun c d => c.1 < d.1) ∧ ∀ c ∈ m, c.1 < memSize ∧ c.2 ≠ bg c.1

/-- `mem[a]` (R11): used where the address is already known to be in range. -/
def State.readByte (s : State) (a : Nat) : Byte := Memory.read (resetByte s.config) s.mem a

/-- `mem[a] <- v` (R11). -/
def State.writeByte (s : State) (a : Nat) (v : Byte) : State :=
  { s with mem := Memory.write (resetByte s.config) s.mem a v }

/-- Consecutive bytes from `a` on, lowest address first. -/
def State.writeBytes (s : State) (a : Nat) : List Byte → State
  | [] => s
  | b :: bs => (s.writeByte a b).writeBytes (a + 1) bs

/-- `MemRead(addr, n)` (R51). The whole range is checked on unbounded integers before any byte moves (R52); with `n = 0` no byte is
addressed and nothing is raised (D11). -/
def State.memRead (s : State) (addr n : Nat) : Except Fault (List Byte) :=
  if 0 < n ∧ memSize < addr + n then .error .outOfBounds
  else .ok ((List.range n).map fun j => s.readByte (addr + j))

/-- `MemWrite(addr, n, v)` with `n` the length of `v` (R51): all or nothing. -/
def State.memWrite (s : State) (addr : Nat) (bytes : List Byte) : Except Fault State :=
  if memSize < addr + bytes.length then .error .outOfBounds
  else .ok (s.writeBytes addr bytes)

/-- Fetch (spec/40_cycle.md R102): the word at `pc`, or OutOfBounds when `pc + 1 > 4095` in unbounded integers. No alignment (R54). -/
def State.fetch (s : State) : Except Fault Word :=
  if 4095 < s.pc.toNat + 1 then .error .outOfBounds
  else .ok (wordOfBytes (s.readByte s.pc.toNat) (s.readByte (s.pc.toNat + 1)))

/-! ### Registers (spec/10_state.md R21, R22, R24) -/

/-- `V[r]`. -/
def State.reg (s : State) (r : RegIx) : Byte := s.V[r]

/-- `V[r] <- v`. -/
def State.setReg (s : State) (r : RegIx) (v : Byte) : State := { s with V := s.V.set r v }

/-- The result, then the flag (spec/43_load_alu.md R140): with `x = 15` the flag remains. The spec's own choice, D7; log 8. -/
def State.setResultAndFlag (s : State) (x : RegIx) (result flag : Byte) : State :=
  (s.setReg x result).setReg flagReg flag

/-- `V[k] <- b0 ; V[k + 1] <- b1 ; ...`: registers in a row, from `V[k]` on. -/
def storeInRegs (V : Vector Byte 16) (k : Nat) : List Byte → Vector Byte 16
  | [] => V
  | b :: bs => storeInRegs (V.setIfInBounds k b) (k + 1) bs

/-- `V[0] <- b0 ; V[1] <- b1 ; ...` (spec/44_index_memory.md R165); the registers after the last byte keep their values. -/
def State.loadRegs (s : State) (bytes : List Byte) : State := { s with V := storeInRegs s.V 0 bytes }

/-- `[V[0], ..., V[x]]` (R164). -/
def State.regsUpTo (s : State) (x : RegIx) : List Byte :=
  List.ofFn fun j : Fin (x.val + 1) => s.reg ⟨j.val, Nat.lt_of_lt_of_le j.isLt x.isLt⟩

/-- `I <- v`. -/
def State.setIndex (s : State) (v : Word) : State := { s with I := v }

/-- `dt <- v`. -/
def State.setTimer (s : State) (v : Byte) : State := { s with dt := v }

/-! ### The program counter (spec/40_cycle.md R104) -/

/-- `npc = (pc + 2) mod 65536`. -/
def State.npc (s : State) : Word := s.pc + 2

/-- `pc <- target`. -/
def State.jump (s : State) (target : Word) : State := { s with pc := target }

/-- `pc <- npc`. -/
def State.advance (s : State) : State := s.jump s.npc

/-- A skip (spec/42_skips.md R136): two bytes more when the condition holds. -/
def State.skipIf (s : State) (condition : Bool) : State :=
  s.jump (if condition then s.npc + 2 else s.npc)

/-! ### The call stack (spec/10_state.md R30, R31) -/

/-- `stack[i]`. Every slot below `STACK_CAPACITY` is listed in every state a run reaches; an unlisted one reads 0 (log 9). -/
def State.slot (s : State) (i : Nat) : Word := s.stack.getD i 0

/-- `stack[sp] <- v; sp <- sp + 1`, or StackOverflow when every slot is used (spec/41_control_transfer.md R121). -/
def State.push (s : State) (v : Word) : Except Fault State :=
  if s.config.stackCapacity ≤ s.sp then .error .stackOverflow
  else .ok { s with stack := s.stack.set s.sp v, sp := s.sp + 1 }

/-- The top entry `stack[sp - 1]`, and the state with `sp <- sp - 1`, or StackUnderflow (R122). The slot keeps its content (D14). -/
def State.pop (s : State) : Except Fault (Word × State) :=
  if s.sp = 0 then .error .stackUnderflow
  else .ok (s.slot (s.sp - 1), { s with sp := s.sp - 1 })

/-! ### The input and output side of a cycle (spec/40_cycle.md R109) -/

/-- The input of this cycle: the first one listed, or the free value of this cycle. Log 3. -/
def State.input (s : State) : CycleInput := s.inputs.headD (Config.freeInput s.cycleNo)

/-- Record a request to a collaborator. -/
def State.ask (s : State) (r : Request) : State := { s with request := some r }

end Sys2Proof.Machine
end

