-- ==== Sys2Proof/Machine/Operands.lean ====
section
/-! DEFINITION. The operand forms (spec/30_encoding.md R83, spec/44_index_memory.md R166): how a field of the word becomes an operand.
Everything is unsigned and zero-extended; nothing is sign-extended, scaled or masked. A register operand is `State.reg`. -/

namespace Sys2Proof.Machine

/-- `nnn` zero-extended to 16 bits, as it goes to `pc` or `I` (R83). -/
def addressOperand (nnn : Addr) : Word := nnn.setWidth 16

/-- `n` as a byte count `0..15` (R83). -/
def countOperand (n : Nibble) : Nat := n.toNat

/-- The register count of a block transfer: the FIELD `x`, not `V[x]`, names the last register (R164, R165). -/
def blockCount (x : RegIx) : Nat := x.val + 1

/-- The only addressing mode (R166): `I + j` in unbounded integers; `j` is the instruction's own offset (R52). -/
def State.effectiveAddress (s : State) (j : Nat) : Nat := s.I.toNat + j

/-- A byte register zero-extended to 16 bits, as JPV0 and ADDI add it (R123, R161). -/
def State.regAsWord (s : State) (x : RegIx) : Word := (s.reg x).setWidth 16

/-- The address of the glyph of a value: `V[x] * 5`, at most 1275, unmasked, with no base term (R162). -/
def glyphAddress (v : Byte) : Word := BitVec.ofNat 16 (v.toNat * 5)

/-- The three decimal digits: hundreds, tens, ones (R163). -/
def decimalDigits (v : Byte) : List Byte :=
  [BitVec.ofNat 8 (v.toNat / 100), BitVec.ofNat 8 (v.toNat / 10 % 10), BitVec.ofNat 8 (v.toNat % 10)]

end Sys2Proof.Machine
end

