-- ==== Sys2Proof/Machine/Alu.lean ====
section
/-! DEFINITION. Register loads and the ALU (spec/43_load_alu.md): LDB, ADDB, MOV, OR, AND, XOR, ADD, SUB, SHR, SUBN, SHL. Operands are
read from the state at the start, the result is written, the flag last (R140). -/

namespace Sys2Proof.Machine

/-- An instruction that writes `V[x]` and no flag. -/
def State.writeResult (s : State) (x : RegIx) (result : Byte) : Result := .next (s.setReg x result).advance

/-- An instruction that writes `V[x]`, then `V[15]`. -/
def State.writeFlagged (s : State) (x : RegIx) (result flag : Byte) : Result :=
  .next (s.setResultAndFlag x result flag).advance

/-- load-immediate (R141). -/
def execLdb (x : RegIx) (kk : Byte) (s : State) : Result := s.writeResult x kk

/-- add-immediate (R142): wraps, writes no flag. -/
def execAddb (x : RegIx) (kk : Byte) (s : State) : Result := s.writeResult x (s.reg x + kk)

/-- copy (R143). -/
def execMov (x y : RegIx) (s : State) : Result := s.writeResult x (s.reg y)

/-- or (R144). -/
def execOr (x y : RegIx) (s : State) : Result := s.writeResult x (s.reg x ||| s.reg y)

/-- and (R145). -/
def execAnd (x y : RegIx) (s : State) : Result := s.writeResult x (s.reg x &&& s.reg y)

/-- xor (R146). -/
def execXor (x y : RegIx) (s : State) : Result := s.writeResult x (s.reg x ^^^ s.reg y)

/-- add-registers (R147). -/
def execAdd (x y : RegIx) (s : State) : Result :=
  s.writeFlagged x (s.reg x + s.reg y) (carryFlag (s.reg x) (s.reg y))

/-- sub (R148). -/
def execSub (x y : RegIx) (s : State) : Result :=
  s.writeFlagged x (s.reg x - s.reg y) (notBorrowFlag (s.reg x) (s.reg y))

/-- shift-right (R149): logical, by one; `y` selects nothing. -/
def execShr (x _y : RegIx) (s : State) : Result :=
  s.writeFlagged x (s.reg x >>> 1) (lowBitFlag (s.reg x))

/-- subn (R150). -/
def execSubn (x y : RegIx) (s : State) : Result :=
  s.writeFlagged x (s.reg y - s.reg x) (notBorrowFlag (s.reg y) (s.reg x))

/-- shift-left (R151): by one; `y` selects nothing. -/
def execShl (x _y : RegIx) (s : State) : Result :=
  s.writeFlagged x (s.reg x <<< 1) (highBitFlag (s.reg x))

end Sys2Proof.Machine
end

