-- ==== Sys2Proof/Machine/Collaborators.lean ====
section
/-! DEFINITION. The instructions that call the display, the random source and the keypad (spec/46_collaborators.md): CLS, DRW, RND, WKEY. What a
collaborator answers is the free input of the cycle (log 3); the request is recorded (R109). -/

namespace Sys2Proof.Machine

/-- clear-screen (R183). -/
def execCls (s : State) : Result := .next (s.ask .clear).advance

/-- draw (R181): the sprite is read first, so a failed read makes no request and writes no flag; with `n = 0` nothing is read and nothing
can fail (D11; log 12). -/
def execDrw (x y : RegIx) (n : Nibble) (s : State) : Result :=
  match s.memRead (s.effectiveAddress 0) (countOperand n) with
  | .ok sprite =>
    .next ((s.ask (.drawSprite (s.reg x) (s.reg y) sprite)).setReg flagReg (collisionFlag s.input.collided)).advance
  | .error f => raise f

/-- random (R182). -/
def execRnd (x : RegIx) (kk : Byte) (s : State) : Result :=
  .next ((s.ask .nextByte).setReg x (s.input.randomByte &&& kk)).advance

/-- await-key (R184): with no key held the advance is retracted and nothing changes; otherwise the answered index goes to `V[x]`, unmasked. -/
def execWkey (x : RegIx) (s : State) : Result :=
  .next (match s.input.anyKey with
    | none => s.ask .anyKeyDown
    | some k => ((s.ask .anyKeyDown).setReg x k).advance)

end Sys2Proof.Machine
end

