-- ==== Sys2Proof/Machine/Control.lean ====
section
/-! DEFINITION. Control transfer (spec/41_control_transfer.md): JP, CALL, RET, JPV0. A target outside `0..4094` is accepted here and the
next fetch fails. -/

namespace Sys2Proof.Machine

/-- jump (R120). -/
def execJp (nnn : Addr) (s : State) : Result := .next (s.jump (addressOperand nnn))

/-- call (R121): the advanced `npc` is what is pushed. -/
def execCall (nnn : Addr) (s : State) : Result :=
  match s.push s.npc with
  | .ok t => .next (t.jump (addressOperand nnn))
  | .error f => raise f

/-- return (R122). -/
def execRet (s : State) : Result :=
  match s.pop with
  | .ok (target, t) => .next (t.jump target)
  | .error f => raise f

/-- jump-offset (R123): always `V[0]`; the sum is not reduced to 12 bits. -/
def execJpv0 (nnn : Addr) (s : State) : Result := .next (s.jump (addressOperand nnn + s.regAsWord 0))

end Sys2Proof.Machine
end

