-- ==== Sys2Proof/Machine/Index.lean ====
section
/-! DEFINITION. The index register and the memory transfers (spec/44_index_memory.md): LDI, ADDI, FONT, BCD, STM, LDM. No memory
instruction changes `I` (R166). -/

namespace Sys2Proof.Machine

/-- load-index (R160). -/
def execLdi (nnn : Addr) (s : State) : Result := .next (s.setIndex (addressOperand nnn)).advance

/-- add-to-index (R161): 16-bit, wraps at 65536 only, writes no flag (D9; log 10). -/
def execAddi (x : RegIx) (s : State) : Result := .next (s.setIndex (s.I + s.regAsWord x)).advance

/-- load-font-address (R162). -/
def execFont (x : RegIx) (s : State) : Result := .next (s.setIndex (glyphAddress (s.reg x))).advance

/-- Store bytes at `I`, or fail with nothing stored (R51). -/
def State.storeAtIndex (s : State) (bytes : List Byte) : Result :=
  match s.memWrite (s.effectiveAddress 0) bytes with
  | .ok t => .next t.advance
  | .error f => raise f

/-- store-bcd (R163). -/
def execBcd (x : RegIx) (s : State) : Result := s.storeAtIndex (decimalDigits (s.reg x))

/-- store-registers (R164): `V[0]` to `V[x]`. -/
def execStm (x : RegIx) (s : State) : Result := s.storeAtIndex (s.regsUpTo x)

/-- load-registers (R165): `V[0]` to `V[x]`; registers above `x` are unchanged. -/
def execLdm (x : RegIx) (s : State) : Result :=
  match s.memRead (s.effectiveAddress 0) (blockCount x) with
  | .ok bytes => .next (s.loadRegs bytes).advance
  | .error f => raise f

end Sys2Proof.Machine
end

