-- ==== Sys2Proof/Machine/Skips.lean ====
section
/-! DEFINITION. The conditional skips (spec/42_skips.md R136): SEB, SNEB, SER, SNER, SKP, SKNP. The skipped word is not fetched. -/

namespace Sys2Proof.Machine

/-- skip-if-equal (R130). -/
def execSeb (x : RegIx) (kk : Byte) (s : State) : Result := .next (s.skipIf (s.reg x == kk))

/-- skip-if-not-equal (R131). -/
def execSneb (x : RegIx) (kk : Byte) (s : State) : Result := .next (s.skipIf (s.reg x != kk))

/-- skip-if-registers-equal (R132). -/
def execSer (x y : RegIx) (s : State) : Result := .next (s.skipIf (s.reg x == s.reg y))

/-- skip-if-registers-not-equal (R133). -/
def execSner (x y : RegIx) (s : State) : Result := .next (s.skipIf (s.reg x != s.reg y))

/-- skip-if-key-down (R134): asks about the whole byte `V[x]`, unmasked; the answer is free (D12, U3). -/
def execSkp (x : RegIx) (s : State) : Result :=
  .next ((s.ask (.isKeyDown (s.reg x))).skipIf s.input.keyDown)

/-- skip-if-key-up (R135). -/
def execSknp (x : RegIx) (s : State) : Result :=
  .next ((s.ask (.isKeyDown (s.reg x))).skipIf (!s.input.keyDown))

end Sys2Proof.Machine
end

