-- ==== Sys2Proof/Machine/Timer.lean ====
section
/-! DEFINITION. The delay timer (spec/45_timer.md): LDDT, STDT, and the tick, which is not an instruction. -/

namespace Sys2Proof.Machine

/-- load-delay-timer (R170). -/
def execLddt (x : RegIx) (s : State) : Result := .next (s.setReg x s.dt).advance

/-- set-delay-timer (R171). -/
def execStdt (x : RegIx) (s : State) : Result := .next (s.setTimer (s.reg x)).advance

/-- One tick (R172): `dt` falls by one, floored at zero; nothing else is read or written. -/
def State.tick (s : State) : State := if 0 < s.dt.toNat then s.setTimer (s.dt - 1) else s

/-- `dt` after `n` ticks: `d - n`, floored at zero. -/
def timerAfter (n : Nat) (d : Byte) : Byte := if d = 0 then 0 else BitVec.ofNat 8 (d.toNat - n)

/-- `n` ticks in a row (R173), in closed form (`State.ticks_eq_iterate` of Laws/Step.lean: it is `n` single ticks). -/
def State.ticks (n : Nat) (s : State) : State := s.setTimer (timerAfter n s.dt)

end Sys2Proof.Machine
end

