-- ==== Sys2Proof/Machine/Cycle.lean ====
section
/-! DEFINITION. The cycle around an instruction (spec/40_cycle.md R101): fetch, decode, execute or run the UNKNOWN no-op, commit; and what the
step adds around it, clearing the outputs and closing the loader's port before, the ticks and the next input after. -/

namespace Sys2Proof.Machine

/-- A cycle is invoked: the outputs of the previous one are gone, this one has made no request and reported no UNKNOWN word yet (R108, R109;
log 5), and the loader's port is closed from now on, whether this cycle succeeds or fails (the model's reading of "before the first cycle",
DESIGN CHOICE, log 15). -/
def State.beginCycle (s : State) : State := { s with request := none, unknown := none, started := true }

/-- A cycle has completed: go on to the next cycle's input (log 3). -/
def State.nextInput (s : State) : State := { s with inputs := s.inputs.tail, cycleNo := s.cycleNo + 1 }

/-- After a successful cycle: the ticks that this cycle's input says fall before the next cycle (R173; log 4), then the next input. -/
def State.endCycle (s : State) : State := (s.ticks s.input.ticks).nextInput

/-- UNKNOWN (R106): the only write to the Processor State is `pc <- npc`; the word is reported. A success, not an error (R204). -/
def execUnknown (w : Word) (s : State) : Result := .next ({ s with unknown := some w } : State).advance

/-- Run the word that was fetched (R101 steps 2 to 4). -/
def State.runWord (s : State) (w : Word) : Result :=
  match decodeWord w with
  | some i => exec i s.beginCycle
  | none => execUnknown w s.beginCycle

/-- One cycle without the ticks after it (R101): a failed cycle answers the failure and nothing else (R107). -/
def State.runCycle (s : State) : Result :=
  match s.fetch with
  | .ok w => s.runWord w
  | .error f => raise f

/-- Apply what follows a successful cycle; a failure stays a failure. -/
def afterCycle (after : State → State) : Result → Result
  | .next t => .next (after t)
  | .fault f => .fault f
  | .refused r => .refused r

/-- Where `withFetchWord` puts a word: at `pc`, or at the default entry address when nothing can be fetched at `pc`. Log 16. -/
def State.fetchableAddress (s : State) : Nat :=
  if s.pc.toNat ≤ 4094 then s.pc.toNat else 0x200

/-- Store the two bytes of a word, high byte first, where the next cycle fetches, and point `pc` there. Log 16. -/
def State.placeWord (s : State) (w : Word) : State :=
  (s.writeBytes s.fetchableAddress (bytesOfWord w)).jump (BitVec.ofNat 16 s.fetchableAddress)

end Sys2Proof.Machine
end

