-- ==== Sys2Proof/Machine/Step.lean ====
section
/-! DEFINITION. One step: one cycle (spec/40_cycle.md R101), then the ticks before the next one (spec/45_timer.md R173). -/

namespace Sys2Proof.Machine

/-- The step function. Everything it does is in Machine/Cycle.lean. -/
def step (s : State) : Host.Outcome State Fault Refusal := afterCycle State.endCycle s.runCycle

/-- `s` with the instruction whose bits are `w` stored where `step` fetches next. The bits above `nbits` are zero. It stands for the host's
load of a program (log 16). -/
def State.withFetchWord (s : State) (nbits w : Nat) : State := s.placeWord (BitVec.ofNat 16 (w % 2 ^ nbits))

end Sys2Proof.Machine
end

