-- ==== Sys2Proof/WellFormed.lean ====
section
/-! DEFINITION. The checks on syntax and parameters. The operands of `Instr` need none: their types carry the field widths of
spec/30_encoding.md R81, every value of a selector names a register (spec/10_state.md R21) and the spec forbids no combination of
operands, so every term of `Instr` is a well-formed instruction. What can be ill formed is a descriptor whose overlapping fields
disagree, a set of parameters, and a program image that does not fit. -/

namespace Sys2Proof

/-- The fields of R81 that are the same bits agree: `x` is `op2`, `y` is `op3`, `n` is `op4`, `kk` is `op3 op4`, `nnn` is
`op2 op3 op4`. -/
abbrev Descriptor.WellFormed (d : Descriptor) : Prop :=
  d.x = d.op2.toFin ∧ d.y = d.op3.toFin ∧ d.n = d.op4 ∧ d.kk = d.op3 ++ d.op4 ∧ d.nnn = d.op2 ++ (d.op3 ++ d.op4)

/-- The constraints on the parameters (R7): `0 <= ENTRY <= 4094`, `1 <= STACK_CAPACITY <= 65535`,
`FONT_BASE + length(FONT) <= ENTRY`. -/
abbrev Config.WellFormed (c : Config) : Prop :=
  c.entry.toNat ≤ 4094 ∧ 1 ≤ c.stackCapacity ∧ c.stackCapacity ≤ 65535 ∧
    c.fontBase + c.font.length ≤ c.entry.toNat

/-- An image of `L` bytes fits: `L <= 4096 - ENTRY` (spec/70_reset_and_hazards.md R233). -/
abbrev Config.ImageFits (c : Config) (image : List Byte) : Prop :=
  c.entry.toNat + image.length ≤ memSize

end Sys2Proof
end

