-- ==== Sys2Proof/Machine/HostOps.lean ====
section
/-! DEFINITION. What the host can invoke, one operation at a time (spec/40_cycle.md R100): reset, load, cycle, tick; the outcome of a cycle
(R108); the power-on and launch states (spec/10_state.md R38, spec/70_reset_and_hazards.md R234). `step` is a cycle and the ticks after it. -/

namespace Sys2Proof.Machine

/-- The outcome of a cycle (R108). -/
inductive CycleOutcome where
  /-- A defined instruction executed. -/
  | ok
  /-- The word was UNKNOWN and executed as a no-op; a success. -/
  | okUnknown (w : Word)
  /-- A failure; the state is as it was. -/
  | failed (f : Fault)
  /-- No outcome of the hardware: the model has no meaning for the instruction. It never occurs. -/
  | notRun (r : Refusal)
deriving DecidableEq, Repr

/-- The numeric code of R108 (the spec's own choice, D19). -/
def CycleOutcome.code : CycleOutcome → Option Nat
  | .ok => some 0
  | .okUnknown _ => some 0
  | .failed .outOfBounds => some 1
  | .failed .stackOverflow => some 2
  | .failed .stackUnderflow => some 3
  | .notRun _ => none

/-- The host's `cycle` (R101, R107, R108): the new state and the outcome. A failed cycle gives back the
Processor State it began with and has made no request; it has closed the loader's port all the same (log 15), as R12's "one invocation"
counts. -/
def State.cycle (s : State) : State × CycleOutcome :=
  match s.runCycle with
  | .next t =>
    (t.nextInput, match t.unknown with
      | none => .ok
      | some w => .okUnknown w)
  | .fault f => (s.beginCycle, .failed f)
  | .refused r => (s.beginCycle, .notRun r)

/-- The host's `reset` (R231): it reads nothing of the old Processor State and makes no request; the coming inputs are the environment's and
stay as they are (log 14). -/
def State.hostReset (s : State) : State :=
  { State.initial s.config with inputs := s.inputs, cycleNo := s.cycleNo }

/-- The host's `load` (R233): the image at `ENTRY`; refused when it does not fit (U16), and once a cycle has been invoked, failed or
not, since the loader's write port is usable only before the first cycle (D1, R66). Log 15. -/
def State.load (s : State) (image : List Byte) : Option State :=
  if s.started = false ∧ s.config.ImageFits image then some (s.writeBytes s.config.entry.toNat image) else none

/-- The launch state (R234): reset, then load. -/
def State.launch (s : State) (image : List Byte) : Option State := s.hostReset.load image

/-- The entries that make every byte read as zero over the reset contents: one for each font byte that is not zero. -/
def zeroedMemory (c : Config) : Memory :=
  ((List.range c.font.length).map (· + c.fontBase)).filterMap fun a =>
    if resetByte c a = 0 then none else some (a, 0)

/-- Power-on (R38): every element of the Processor State is zero, `pc` included, and no font is loaded yet. -/
def State.powerOn (c : Config) : State :=
  { State.initial c with pc := 0, mem := zeroedMemory c }

/-- The four operations of R100. -/
inductive HostOp where
  | reset
  | load (image : List Byte)
  | cycle
  | tick
deriving DecidableEq, Repr

/-- What the host gets back from an operation: only a cycle has an outcome, and a load may be refused. -/
inductive HostReport where
  | done
  | cycled (o : CycleOutcome)
  | loadRefused
deriving DecidableEq, Repr

/-- One operation of the host. -/
def State.host (s : State) : HostOp → State × HostReport
  | .reset => (s.hostReset, .done)
  | .load image =>
    match s.load image with
    | some t => (t, .done)
    | none => (s, .loadRefused)
  | .cycle => (s.cycle.1, .cycled s.cycle.2)
  | .tick => (s.tick, .done)

/-- A sequence of operations, one after another (R100). -/
def State.hostRun (s : State) : List HostOp → State
  | [] => s
  | op :: ops => (s.host op).1.hostRun ops

end Sys2Proof.Machine
end

