-- ==== Sys2Proof/Safety.lean ====
section
/-! DEFINITION. The terms in which claims speak: the invariant of the states that runs reach, what an operation leaves unchanged, when a run is
safe, and when it has ended. -/

namespace Sys2Proof.Machine

/-- The invariant (spec/10_state.md R42, R30, R31): the parameters are legal, the stack has its slots, `sp` is in range, memory is canonical. -/
abbrev State.Inv (s : State) : Prop :=
  s.config.WellFormed ∧ s.stack.length = s.config.stackCapacity ∧ s.sp ≤ s.config.stackCapacity ∧
    Memory.wf (resetByte s.config) s.mem

/-- The bound of R28: `pc` never leaves `0 .. 4350`, and no return address exceeds 4096 (R121). -/
abbrev State.PcBounded (s : State) : Prop :=
  s.pc.toNat ≤ 4350 ∧ ∀ a ∈ s.stack, a.toNat ≤ 4096

/-! ### What is unchanged -/

/-- Every register but those listed. -/
def SameRegsBut (written : List RegIx) (s t : State) : Prop := ∀ r, r ∉ written → t.reg r = s.reg r

/-- Every byte of memory but those at the addresses from `a` on, `n` of them. -/
def SameMemoryBut (a n : Nat) (s t : State) : Prop :=
  ∀ b, (b < a ∨ a + n ≤ b) → t.readByte b = s.readByte b

/-- Every byte of memory. -/
def SameMemory (s t : State) : Prop := ∀ b, t.readByte b = s.readByte b

/-- The call stack and its pointer. -/
def SameStack (s t : State) : Prop := t.stack = s.stack ∧ t.sp = s.sp

/-- The parameters, the inputs and their counter, the loader's mark and the UNKNOWN mark: no instruction touches them. -/
def SameSurroundings (s t : State) : Prop :=
  t.config = s.config ∧ t.inputs = s.inputs ∧ t.cycleNo = s.cycleNo ∧ t.started = s.started ∧ t.unknown = s.unknown

/-- Nothing has changed but `pc`, the listed registers and the recorded request. -/
def OnlyRegsAndRequest (written : List RegIx) (s t : State) : Prop :=
  SameRegsBut written s t ∧ t.I = s.I ∧ SameStack s t ∧ t.dt = s.dt ∧ SameMemory s t ∧ SameSurroundings s t

/-- Nothing has changed but `pc` and the listed registers; no request was recorded. -/
def OnlyRegs (written : List RegIx) (s t : State) : Prop :=
  OnlyRegsAndRequest written s t ∧ t.request = s.request

/-- `pc` has moved on by `n` bytes, in 16 bits (spec/10_state.md R28). -/
def MovedOn (n : Nat) (s t : State) : Prop := t.pc.toNat = (s.pc.toNat + n) % 65536

/-- Two states that no instruction can tell apart (spec/10_state.md R31): equal but for stack slots at and above `sp`. -/
def SameVisible (s t : State) : Prop :=
  t = { s with stack := t.stack } ∧ t.stack.length = s.stack.length ∧ ∀ j < s.sp, t.slot j = s.slot j

/-! ### Runs -/

/-- The step goes on. -/
def State.Steps (s : State) : Prop := ∃ t, step s = .next t

/-- `k` steps from `s` all go on: no failure (spec/60_exceptions.md R208). -/
def State.SafeFor (s : State) (k : Nat) : Prop := ∃ t, Sys2Proof.core.run k s = .next t

/-- THE END OF A RUN (spec/70_reset_and_hazards.md R235): THE HARDWARE NEVER STOPS BY ITSELF; a run has ended when the word at `pc` is a
jump to `pc`. -/
def State.AtEnd (s : State) : Prop :=
  ∃ w nnn, s.fetch = .ok w ∧ decodeWord w = some (.jp nnn) ∧ nnn.toNat = s.pc.toNat

/-- Execute instructions one after another, stopping at the first failure. -/
def execAll : List Instr → State → Result
  | [], s => .next s
  | i :: is, s =>
    match exec i s with
    | .next t => execAll is t
    | .fault f => .fault f
    | .refused r => .refused r

/-! ### Optional premises about the environment (spec/46_collaborators.md R180, D12) -/

/-- The keypad keeps its contract in the cycle of input `i`, with the keys `held` (of `0..15`) held: `any_key_down()` answers the lowest held
key or nothing, and `is_key_down(k)` tells the truth for `k` up to 15. No instruction assumes it. -/
def KeypadContract (held : RegIx → Bool) (asked : Byte) (i : CycleInput) : Prop :=
  (∀ k : RegIx, asked.toNat = k.val → i.keyDown = held k) ∧
    match i.anyKey with
    | none => ∀ k, held k = false
    | some b => ∃ k : RegIx, b.toNat = k.val ∧ held k = true ∧ ∀ j : RegIx, held j = true → k ≤ j

end Sys2Proof.Machine
end

