-- ==== Sys2Proof/Certificates/Slice0/Obligations.lean ====
section
/-! DEFINITION. The statements for the provers. Each docstring names the rule of spec/ it formalises. Every statement that says what an
instruction does is about EVERY state and every operand; a hypothesis is a condition the rule itself gives, or a part of the invariant
`State.Inv`, which `StepKeepsTheInvariant` and `HostOperationsKeepTheInvariant` state. A clause on `encode` says which word the statement is
about; where its number, or another clause, is the spec's own choice or the model's, the docstring names the spec's entry (D, GK) and the log
entry. -/

open Sys2Proof Sys2Proof.Machine

/-! ### Encoding -/

/-- R81: the nine fields of every word, in numbers, and the overlapping ones agree. -/
def Obligations.FieldsAreTheWordsBits : Prop :=
  ∀ w : Word,
    (describe w).WellFormed ∧
    (describe w).op1.toNat = w.toNat / 4096 ∧
    (describe w).op2.toNat = w.toNat / 256 % 16 ∧
    (describe w).op3.toNat = w.toNat / 16 % 16 ∧
    (describe w).op4.toNat = w.toNat % 16 ∧
    (describe w).x.val = w.toNat / 256 % 16 ∧
    (describe w).y.val = w.toNat / 16 % 16 ∧
    (describe w).nnn.toNat = w.toNat % 4096 ∧
    (describe w).kk.toNat = w.toNat % 256 ∧
    (describe w).n.toNat = w.toNat % 16

/-- Every instruction with every operand: its two bytes decode to it, whatever follows them. The numbers of the words: the
spec's GK1, log 7; that SHR and SHL carry the ignored `y` is the model's choice, log 20. -/
def Obligations.DecodeInvertsEncode : Prop :=
  ∀ (i : Instr) (rest : List Byte), decode (encodeBytes i ++ rest) = .ok (i, rest)

/-- Every defined word has one meaning and no bit of it is dropped: encoding what it decodes to gives it back. The numbers of the words:
the spec's GK1, log 7. For `8xy6` and `8xyE` with `y` not 0 it is the model's choice: SHR and SHL keep the ignored `y` (R89 assembles them with
`y = 0`), log 20. -/
def Obligations.EncodeInvertsDecode : Prop :=
  ∀ (w : Word) (i : Instr), decodeWord w = some i → encode i = w

/-- R85: a word selects a row of the opcode map exactly when `w & mask == match`, and selecting it means decoding to its instruction. The
numbers of thirty rows: the spec's GK1, log 7. -/
def Obligations.DecodeFollowsTheOpcodeMap : Prop :=
  ∀ (w : Word) (r : OpcodeRow), r ∈ opcodeRows →
    (w &&& r.mask = r.pattern ↔ ∃ i, decodeWord w = some i ∧ i.mnemonic = r.mnemonic)

/-- R84: no word selects two rows, and a word is UNKNOWN exactly when it selects none. The numbers of the words: the spec's GK1, log 7. -/
def Obligations.OpcodeRowsAreDisjoint : Prop :=
  (opcodeRows.Pairwise fun r q => ∀ w : Word, ¬ (w &&& r.mask = r.pattern ∧ w &&& q.mask = q.pattern)) ∧
  ∀ w : Word, decodeWord w = none ↔ ∀ r ∈ opcodeRows, w &&& r.mask ≠ r.pattern

/-- The table of the UNKNOWN words (30_encoding.md section 4, part of R87). The exact match of every fixed nibble: the spec's D6, and the
numbers its GK1, log 7. -/
def Obligations.UnknownWordsAreThoseListed : Prop :=
  ∀ w : Word, decodeWord w = none ↔
    (w.toNat / 4096 = 0x0 ∧ w.toNat % 4096 ≠ 0x0E0 ∧ w.toNat % 4096 ≠ 0x0EE) ∨
    (w.toNat / 4096 = 0x5 ∧ w.toNat % 16 ≠ 0) ∨
    (w.toNat / 4096 = 0x8 ∧ w.toNat % 16 ∈ [0x8, 0x9, 0xA, 0xB, 0xC, 0xD, 0xF]) ∨
    (w.toNat / 4096 = 0x9 ∧ w.toNat % 16 ≠ 0) ∨
    (w.toNat / 4096 = 0xE ∧ w.toNat % 256 ∉ [0x9E, 0xA1]) ∨
    (w.toNat / 4096 = 0xF ∧ w.toNat % 256 ∉ [0x07, 0x0A, 0x15, 0x1E, 0x29, 0x33, 0x55, 0x65])

/-- R86, and one word of every other format: sample words decode to the instructions they stand for. All but the first three rest on the
spec's GK1, log 7. -/
def Obligations.SampleWordsDecode : Prop :=
  decodeWord 0x6005 = some (.ldb 0 5) ∧ decodeWord 0x7003 = some (.addb 0 3) ∧
  decodeWord 0x8014 = some (.add 0 1) ∧ decodeWord 0x00EE = some .ret ∧
  decodeWord 0x2ABC = some (.call 0xABC) ∧ decodeWord 0xD125 = some (.drw 1 2 5) ∧
  decodeWord 0xE49E = some (.skp 4) ∧ decodeWord 0xF265 = some (.ldm 2) ∧ decodeWord 0xF518 = none

/-! ### The cycle and the step -/

/-- R102: what fetch reads, and when it fails; a step whose fetch fails is that failure. -/
def Obligations.FetchReadsTheWordAtPc : Prop :=
  ∀ s : State,
    (s.pc.toNat ≤ 4094 → ∃ w, s.fetch = .ok w ∧
      w.toNat = (s.readByte s.pc.toNat).toNat * 256 + (s.readByte (s.pc.toNat + 1)).toNat) ∧
    (4095 ≤ s.pc.toNat → s.fetch = .error .outOfBounds ∧ step s = .fault .outOfBounds)

/-- R101: a step whose two bytes at `pc` decode to `i` is `exec i` on the state with the outputs cleared and the loader's port closed; a
failure stays that failure; after a success the ticks of this cycle's input run (`dt` only) and the next input comes up. That the ticks are a part of the step, and
`started`, are the model's: log 4, log 15. -/
def Obligations.StepRunsTheDecodedInstruction : Prop :=
  ∀ (s : State) (i : Instr), s.pc.toNat ≤ 4094 →
    decode [s.readByte s.pc.toNat, s.readByte (s.pc.toNat + 1)] = .ok (i, []) →
    step s =
      match exec i { s with request := none, unknown := none, started := true } with
      | .next t => .next { t with
          dt := timerAfter t.input.ticks t.dt, inputs := t.inputs.tail, cycleNo := t.cycleNo + 1 }
      | .fault f => .fault f
      | .refused r => .refused r

/-- R106: an UNKNOWN word completes as a no-op: the Processor State changes in `pc` alone, no request is made, the outcome names the word.
The mark on the outcome is the spec's D13, log 5. The step is that cycle and then the ticks of its input, which may let `dt` fall (R173): that
the ticks are a part of the step is the model's, log 4. -/
def Obligations.UnknownWordIsANoOp : Prop :=
  ∀ (s : State) (w : Word), s.fetch = .ok w → decodeWord w = none →
    ∃ t, s.cycle = (t, .okUnknown w) ∧
      t.toProcessor = { s.toProcessor with pc := s.pc + 2 } ∧ t.config = s.config ∧ t.request = none ∧
      step s = .next (t.ticks s.input.ticks)

/-- A word placed with `withFetchWord` is the word the next cycle fetches, in every state, and no byte but the two it lies in changes.
`withFetchWord` is the model's: log 16. -/
def Obligations.PlacedWordIsFetched : Prop :=
  ∀ (s : State) (n : Nat), n < 65536 →
    (s.withFetchWord 16 n).fetch = .ok (BitVec.ofNat 16 n) ∧
    SameMemoryBut (s.withFetchWord 16 n).pc.toNat 2 s (s.withFetchWord 16 n) ∧
    (s.pc.toNat ≤ 4094 → (s.withFetchWord 16 n).pc = s.pc)

/-- R107, R207: a failing cycle gives the host back the Processor State it began with and the kind of failure, and has made no request; a
step then stops with that fault. The spec's D8, log 6. That it closes the loader's port all the same is the model's, log 15. -/
def Obligations.FailedCycleChangesNothing : Prop :=
  ∀ (s : State) (f : Fault), s.runCycle = .fault f →
    s.cycle = ({ s with request := none, unknown := none, started := true }, .failed f) ∧
    s.cycle.1.toProcessor = s.toProcessor ∧ step s = .fault f

/-- 60_exceptions.md R208: a failure depends on no answer, no tick and no output: cycling again fails in the same way, ticks in between or
not. Derived by the spec from R207. -/
def Obligations.FailureRecurs : Prop :=
  ∀ (s : State) (f : Fault) (n : Nat) (ins : List CycleInput) (c : Nat),
    step s = .fault f → step { s.ticks n with inputs := ins, cycleNo := c } = .fault f

/-- A step is the host's `cycle` and then as many single `tick`s as the cycle's input says (R100, R173). That the ticks are a part of the
step is the model's: log 4. -/
def Obligations.StepIsCycleThenTicks : Prop :=
  ∀ s t : State, step s = .next t →
    t = s.hostRun (.cycle :: List.replicate s.input.ticks .tick)

/-- R64: bytes that STM stored are what a fetch from them reads next. Derived by the spec from R56, R59, R102. -/
def Obligations.StoredCodeIsFetched : Prop :=
  ∀ (s t : State) (x j : RegIx) (p : Word), exec (.stm x) s = .next t →
    j.val + 1 ≤ x.val → p.toNat = s.I.toNat + j.val →
    (t.jump p).fetch = .ok (wordOfBytes (s.reg j) (s.reg (j + 1)))

/-! ### Control transfer -/

/-- R120, R123: JP and JPV0 complete in every state: the target, and nothing else changes. The numbers of the words: the spec's GK1, log
7. -/
def Obligations.JumpsGoToTheirTarget : Prop :=
  ∀ (s : State) (nnn : Addr),
    ((encode (.jp nnn)).toNat = 0x1000 + nnn.toNat ∧
      ∃ t, exec (.jp nnn) s = .next t ∧ t.pc.toNat = nnn.toNat ∧ OnlyRegs [] s t) ∧
    ((encode (.jpv0 nnn)).toNat = 0xB000 + nnn.toNat ∧
      ∃ t, exec (.jpv0 nnn) s = .next t ∧ t.pc.toNat = nnn.toNat + (s.reg 0).toNat ∧ OnlyRegs [] s t)

/-- R121: CALL pushes the address after itself and jumps; with every slot used it fails. The hypothesis on the slots is part of
`State.Inv`. The numbers of the words: the spec's GK1, log 7. -/
def Obligations.CallPushesAndJumps : Prop :=
  ∀ (s : State) (nnn : Addr), s.stack.length = s.config.stackCapacity →
    (encode (.call nnn)).toNat = 0x2000 + nnn.toNat ∧
    (s.sp < s.config.stackCapacity → ∃ t, exec (.call nnn) s = .next t ∧
      (t.slot s.sp).toNat = (s.pc.toNat + 2) % 65536 ∧ t.sp = s.sp + 1 ∧ t.pc.toNat = nnn.toNat ∧
      t.stack.length = s.stack.length ∧ (∀ j, j ≠ s.sp → t.slot j = s.slot j) ∧
      SameRegsBut [] s t ∧ t.I = s.I ∧ t.dt = s.dt ∧ SameMemory s t ∧ SameSurroundings s t ∧
      t.request = s.request) ∧
    (s.config.stackCapacity ≤ s.sp → exec (.call nnn) s = .fault .stackOverflow)

/-- R122: RET pops the last live entry into `pc` and leaves its slot; with no entry it fails. The numbers of the words: the spec's GK1,
log 7. That the slot keeps its content: the spec's D14, log 9. -/
def Obligations.ReturnPops : Prop :=
  ∀ s : State,
    (encode .ret).toNat = 0x00EE ∧
    (s.sp ≠ 0 → ∃ t, exec .ret s = .next t ∧
      t.pc = s.slot (s.sp - 1) ∧ t.sp + 1 = s.sp ∧ t.stack = s.stack ∧
      SameRegsBut [] s t ∧ t.I = s.I ∧ t.dt = s.dt ∧ SameMemory s t ∧ SameSurroundings s t ∧
      t.request = s.request) ∧
    (s.sp = 0 → exec .ret s = .fault .stackUnderflow)

/-- The call and return law (first sentence of R124): a RET right after a CALL resumes after the call, with `sp` and every live slot as
before and everything else untouched. That `sp` and the live slots are restored is derived by the spec. -/
def Obligations.ReturnResumesAfterTheCall : Prop :=
  ∀ (s t : State) (nnn : Addr), s.stack.length = s.config.stackCapacity → exec (.call nnn) s = .next t →
    ∃ u, exec .ret t = .next u ∧ u.pc.toNat = (s.pc.toNat + 2) % 65536 ∧ u.sp = s.sp ∧
      (∀ j < s.sp, u.slot j = s.slot j) ∧
      u.V = s.V ∧ u.I = s.I ∧ u.dt = s.dt ∧ SameMemory s u ∧ SameSurroundings s u

/-- R121, R202 and the source's scenario S3: calls nest to exactly STACK_CAPACITY; the next one overflows. The capacity is a parameter
(D3, log 1). -/
def Obligations.CallsNestToCapacity : Prop :=
  ∀ (s : State) (targets : List Addr), s.sp + targets.length = s.config.stackCapacity →
    ∃ t, execAll (targets.map .call) s = .next t ∧ t.sp = s.config.stackCapacity ∧
      ∀ nnn, exec (.call nnn) t = .fault .stackOverflow

/-! ### Skips -/

/-- R130 to R133: the four comparing skips complete in every state: four bytes on when the condition holds, two otherwise; nothing else
changes. The numbers of the words: the spec's GK1, log 7. -/
def Obligations.ComparingSkips : Prop :=
  ∀ (s : State) (x y : RegIx) (kk : Byte),
    ((encode (.seb x kk)).toNat = 0x3000 + 256 * x.val + kk.toNat ∧ ∃ t, exec (.seb x kk) s = .next t ∧
      MovedOn (if (s.reg x).toNat = kk.toNat then 4 else 2) s t ∧ OnlyRegs [] s t) ∧
    ((encode (.sneb x kk)).toNat = 0x4000 + 256 * x.val + kk.toNat ∧ ∃ t, exec (.sneb x kk) s = .next t ∧
      MovedOn (if (s.reg x).toNat ≠ kk.toNat then 4 else 2) s t ∧ OnlyRegs [] s t) ∧
    ((encode (.ser x y)).toNat = 0x5000 + 256 * x.val + 16 * y.val ∧ ∃ t, exec (.ser x y) s = .next t ∧
      MovedOn (if (s.reg x).toNat = (s.reg y).toNat then 4 else 2) s t ∧ OnlyRegs [] s t) ∧
    ((encode (.sner x y)).toNat = 0x9000 + 256 * x.val + 16 * y.val ∧ ∃ t, exec (.sner x y) s = .next t ∧
      MovedOn (if (s.reg x).toNat ≠ (s.reg y).toNat then 4 else 2) s t ∧ OnlyRegs [] s t)

/-- R134, R135: the key skips ask about the whole byte `V[x]` and obey the answer, whichever it is. The numbers of the words: the spec's
GK1, log 7. The unmasked key index: the spec's D12, log 18; the free answer: D21, log 3. -/
def Obligations.KeySkipsObeyTheKeypad : Prop :=
  ∀ (s : State) (x : RegIx),
    ((encode (.skp x)).toNat = 0xE09E + 256 * x.val ∧ ∃ t, exec (.skp x) s = .next t ∧
      t.request = some (.isKeyDown (s.reg x)) ∧
      MovedOn (if s.input.keyDown = true then 4 else 2) s t ∧ OnlyRegsAndRequest [] s t) ∧
    ((encode (.sknp x)).toNat = 0xE0A1 + 256 * x.val ∧ ∃ t, exec (.sknp x) s = .next t ∧
      t.request = some (.isKeyDown (s.reg x)) ∧
      MovedOn (if s.input.keyDown = false then 4 else 2) s t ∧ OnlyRegsAndRequest [] s t)

/-! ### Loads and the ALU -/

/-- R141, R142: load-immediate; and add-immediate, whose sum wraps at 256 while `V[15]` keeps its value unless it is the destination. Both
patterns are shown by the source (R86). -/
def Obligations.ImmediatesLoadAndAdd : Prop :=
  ∀ (s : State) (x : RegIx) (kk : Byte),
    ((encode (.ldb x kk)).toNat = 0x6000 + 256 * x.val + kk.toNat ∧ ∃ t, exec (.ldb x kk) s = .next t ∧
      t.reg x = kk ∧ MovedOn 2 s t ∧ OnlyRegs [x] s t) ∧
    ((encode (.addb x kk)).toNat = 0x7000 + 256 * x.val + kk.toNat ∧ ∃ t, exec (.addb x kk) s = .next t ∧
      (t.reg x).toNat = ((s.reg x).toNat + kk.toNat) % 256 ∧ (x ≠ 15 → t.reg 15 = s.reg 15) ∧
      MovedOn 2 s t ∧ OnlyRegs [x] s t)

/-- R143 to R146: copy, and the bitwise operations, bit by bit; no flag. The numbers of the words: the spec's GK1, log 7. -/
def Obligations.CopyAndBitwiseLogic : Prop :=
  ∀ (s : State) (x y : RegIx),
    ((encode (.mov x y)).toNat = 0x8000 + 256 * x.val + 16 * y.val ∧ ∃ t, exec (.mov x y) s = .next t ∧
      t.reg x = s.reg y ∧ MovedOn 2 s t ∧ OnlyRegs [x] s t) ∧
    ((encode (.or x y)).toNat = 0x8001 + 256 * x.val + 16 * y.val ∧ ∃ t, exec (.or x y) s = .next t ∧
      (∀ b, (t.reg x).getLsbD b = ((s.reg x).getLsbD b || (s.reg y).getLsbD b)) ∧
      MovedOn 2 s t ∧ OnlyRegs [x] s t) ∧
    ((encode (.and x y)).toNat = 0x8002 + 256 * x.val + 16 * y.val ∧ ∃ t, exec (.and x y) s = .next t ∧
      (∀ b, (t.reg x).getLsbD b = ((s.reg x).getLsbD b && (s.reg y).getLsbD b)) ∧
      MovedOn 2 s t ∧ OnlyRegs [x] s t) ∧
    ((encode (.xor x y)).toNat = 0x8003 + 256 * x.val + 16 * y.val ∧ ∃ t, exec (.xor x y) s = .next t ∧
      (∀ b, (t.reg x).getLsbD b = ((s.reg x).getLsbD b != (s.reg y).getLsbD b)) ∧
      MovedOn 2 s t ∧ OnlyRegs [x] s t)

/-- R147: the sum modulo 256, then the carry, which is what remains when `x = 15`. That the flag remains when `x = 15`: the spec's D7, log
8. -/
def Obligations.AddRegistersSetsCarry : Prop :=
  ∀ (s : State) (x y : RegIx),
    (encode (.add x y)).toNat = 0x8004 + 256 * x.val + 16 * y.val ∧ ∃ t, exec (.add x y) s = .next t ∧
      (x ≠ 15 → (t.reg x).toNat = ((s.reg x).toNat + (s.reg y).toNat) % 256) ∧
      (t.reg 15).toNat = (if 255 < (s.reg x).toNat + (s.reg y).toNat then 1 else 0) ∧
      MovedOn 2 s t ∧ OnlyRegs [x, 15] s t

/-- R148, R150: the difference modulo 256, then the inverse of the borrow, which is what remains when `x = 15`. The numbers of the words:
the spec's GK1, log 7. That the flag remains when `x = 15`: the spec's D7, log 8. -/
def Obligations.SubtractionsSetNotBorrow : Prop :=
  ∀ (s : State) (x y : RegIx),
    ((encode (.sub x y)).toNat = 0x8005 + 256 * x.val + 16 * y.val ∧ ∃ t, exec (.sub x y) s = .next t ∧
      (x ≠ 15 → ((t.reg x).toNat : Int) = (((s.reg x).toNat : Int) - (s.reg y).toNat) % 256) ∧
      (t.reg 15).toNat = (if (s.reg x).toNat < (s.reg y).toNat then 0 else 1) ∧
      MovedOn 2 s t ∧ OnlyRegs [x, 15] s t) ∧
    ((encode (.subn x y)).toNat = 0x8007 + 256 * x.val + 16 * y.val ∧ ∃ t, exec (.subn x y) s = .next t ∧
      (x ≠ 15 → ((t.reg x).toNat : Int) = (((s.reg y).toNat : Int) - (s.reg x).toNat) % 256) ∧
      (t.reg 15).toNat = (if (s.reg y).toNat < (s.reg x).toNat then 0 else 1) ∧
      MovedOn 2 s t ∧ OnlyRegs [x, 15] s t)

/-- R149, R151: one place, logical; then the bit shifted out; `y` changes nothing. The numbers of the words: the spec's GK1, log 7. That
the flag remains when `x = 15`: the spec's D7, log 8. -/
def Obligations.ShiftsByOnePlace : Prop :=
  ∀ (s : State) (x y : RegIx),
    ((encode (.shr x y)).toNat = 0x8006 + 256 * x.val + 16 * y.val ∧ ∃ t, exec (.shr x y) s = .next t ∧
      (x ≠ 15 → (t.reg x).toNat = (s.reg x).toNat / 2) ∧ (t.reg 15).toNat = (s.reg x).toNat % 2 ∧
      MovedOn 2 s t ∧ OnlyRegs [x, 15] s t ∧ ∀ y', exec (.shr x y') s = .next t) ∧
    ((encode (.shl x y)).toNat = 0x800E + 256 * x.val + 16 * y.val ∧ ∃ t, exec (.shl x y) s = .next t ∧
      (x ≠ 15 → (t.reg x).toNat = (s.reg x).toNat * 2 % 256) ∧ (t.reg 15).toNat = (s.reg x).toNat / 128 ∧
      MovedOn 2 s t ∧ OnlyRegs [x, 15] s t ∧ ∀ y', exec (.shl x y') s = .next t)

/-- R37, R140: the six flag writers leave 0 or 1 in `V[15]`, also when it is their destination. The spec's D7, log 8. -/
def Obligations.FlagWritersLeaveZeroOrOne : Prop :=
  ∀ (s t : State) (x y : RegIx) (n : Nibble) (i : Instr),
    i ∈ [Instr.add x y, .sub x y, .shr x y, .subn x y, .shl x y, .drw x y n] → exec i s = .next t →
    t.reg 15 = 0 ∨ t.reg 15 = 1

/-- R37: what can change `V[15]` at all: the six flag writers, and an instruction that names it as its destination. The spec's table of
R37 and the sentence under it. -/
def Obligations.OnlyTheseChangeTheFlagRegister : Prop :=
  ∀ (s t : State) (i : Instr), exec i s = .next t → t.reg 15 ≠ s.reg 15 →
    (∃ x y n, i ∈ [Instr.add x y, .sub x y, .shr x y, .subn x y, .shl x y, .drw x y n]) ∨
    (∃ y kk, i ∈ [Instr.ldb 15 kk, .addb 15 kk, .rnd 15 kk, .mov 15 y, .or 15 y, .and 15 y, .xor 15 y,
      .lddt 15, .wkey 15, .ldm 15])

/-! ### Index register and memory -/

/-- R160, R161, R162: the new value of `I`; no flag; nothing else changes. The numbers of the words: the spec's GK1, log 7. That ADDI
wraps at 65536: the spec's D9, log 10. -/
def Obligations.IndexRegisterInstructions : Prop :=
  ∀ (s : State) (x : RegIx) (nnn : Addr),
    ((encode (.ldi nnn)).toNat = 0xA000 + nnn.toNat ∧ ∃ t, exec (.ldi nnn) s = .next t ∧
      t.I.toNat = nnn.toNat ∧ MovedOn 2 s t ∧ OnlyRegs [] { s with I := t.I } t) ∧
    ((encode (.addi x)).toNat = 0xF01E + 256 * x.val ∧ ∃ t, exec (.addi x) s = .next t ∧
      t.I.toNat = (s.I.toNat + (s.reg x).toNat) % 65536 ∧ MovedOn 2 s t ∧ OnlyRegs [] { s with I := t.I } t) ∧
    ((encode (.font x)).toNat = 0xF029 + 256 * x.val ∧ ∃ t, exec (.font x) s = .next t ∧
      t.I.toNat = (s.reg x).toNat * 5 ∧ MovedOn 2 s t ∧ OnlyRegs [] { s with I := t.I } t)

/-- R163: the three digits at `I`, `I + 1`, `I + 2`, no other byte; or OutOfBounds. The numbers of the words: the spec's GK1, log 7. The
unbounded sum in the bound: the spec's D10, log 11. -/
def Obligations.BcdStoresThreeDigits : Prop :=
  ∀ (s : State) (x : RegIx),
    (encode (.bcd x)).toNat = 0xF033 + 256 * x.val ∧
    (s.effectiveAddress 2 ≤ 4095 → ∃ t, exec (.bcd x) s = .next t ∧
      (t.readByte (s.effectiveAddress 0)).toNat = (s.reg x).toNat / 100 ∧
      (t.readByte (s.effectiveAddress 1)).toNat = (s.reg x).toNat / 10 % 10 ∧
      (t.readByte (s.effectiveAddress 2)).toNat = (s.reg x).toNat % 10 ∧
      SameMemoryBut (s.effectiveAddress 0) 3 s t ∧ MovedOn 2 s t ∧ OnlyRegs [] { s with mem := t.mem } t) ∧
    (4095 < s.effectiveAddress 2 → exec (.bcd x) s = .fault .outOfBounds)

/-- R164: `V[0]` to `V[x]` at `I` to `I + x`, no other byte, `I` unchanged; or OutOfBounds. The numbers of the words: the spec's GK1, log
7. The unbounded sum in the bound: the spec's D10, log 11. -/
def Obligations.StoreRegistersStoresTheBlock : Prop :=
  ∀ (s : State) (x : RegIx),
    (encode (.stm x)).toNat = 0xF055 + 256 * x.val ∧
    (s.effectiveAddress x.val ≤ 4095 → ∃ t, exec (.stm x) s = .next t ∧
      (∀ j : RegIx, j ≤ x → t.readByte (s.effectiveAddress j.val) = s.reg j) ∧
      SameMemoryBut (s.effectiveAddress 0) (x.val + 1) s t ∧ MovedOn 2 s t ∧ OnlyRegs [] { s with mem := t.mem } t) ∧
    (4095 < s.effectiveAddress x.val → exec (.stm x) s = .fault .outOfBounds)

/-- R165: `V[0]` to `V[x]` from `I` to `I + x`; registers above `x`, memory and `I` unchanged; or OutOfBounds. The numbers of the words:
the spec's GK1, log 7. The unbounded sum in the bound: the spec's D10, log 11. -/
def Obligations.LoadRegistersLoadsTheBlock : Prop :=
  ∀ (s : State) (x : RegIx),
    (encode (.ldm x)).toNat = 0xF065 + 256 * x.val ∧
    (s.effectiveAddress x.val ≤ 4095 → ∃ t, exec (.ldm x) s = .next t ∧
      (∀ j : RegIx, j ≤ x → t.reg j = s.readByte (s.effectiveAddress j.val)) ∧
      (∀ j : RegIx, x < j → t.reg j = s.reg j) ∧
      MovedOn 2 s t ∧ OnlyRegs ((List.finRange 16).filter (· ≤ x)) s t) ∧
    (4095 < s.effectiveAddress x.val → exec (.ldm x) s = .fault .outOfBounds)

/-- R167: a load right after a store of the same block gives every register its value back. -/
def Obligations.LoadAfterStoreRestores : Prop :=
  ∀ (s t : State) (x : RegIx), exec (.stm x) s = .next t →
    ∃ u, exec (.ldm x) t = .next u ∧ u.V = s.V ∧ u.I = s.I ∧ SameMemory t u

/-- R57: a byte read is the byte last written there, and writing it changes no other byte. Derived from the second sentence of R57. -/
def Obligations.ReadAfterWrite : Prop :=
  ∀ (s : State) (a b : Nat) (v : Byte),
    (s.writeByte a v).readByte b = if b = a then v else s.readByte b

/-- Canonical memories that read alike are the same list: equal memories are equal data. Memory as a list is the model's: log 13. -/
def Obligations.CanonicalMemoriesAreEqual : Prop :=
  ∀ (bg : Nat → Byte) (m m' : Memory), Memory.wf bg m → Memory.wf bg m' →
    (∀ a, Memory.read bg m a = Memory.read bg m' a) → m = m'

/-! ### The timer -/

/-- R170, R171: `V[x] <- dt` and `dt <- V[x]`. The numbers of the words: the spec's GK1, log 7. -/
def Obligations.TimerInstructions : Prop :=
  ∀ (s : State) (x : RegIx),
    ((encode (.lddt x)).toNat = 0xF007 + 256 * x.val ∧ ∃ t, exec (.lddt x) s = .next t ∧
      t.reg x = s.dt ∧ MovedOn 2 s t ∧ OnlyRegs [x] s t) ∧
    ((encode (.stdt x)).toNat = 0xF015 + 256 * x.val ∧ ∃ t, exec (.stdt x) s = .next t ∧
      t.dt = s.reg x ∧ MovedOn 2 s t ∧ OnlyRegs [] { s with dt := t.dt } t)

/-- R172: one tick takes one from `dt`, nothing from zero, and touches nothing else. -/
def Obligations.TickFloorsAtZero : Prop :=
  ∀ s : State, s.tick.dt.toNat = s.dt.toNat - 1 ∧ s.tick = { s with dt := s.tick.dt }

/-- R173: a step lets `dt` grow only when it executes STDT. The ticks of a step: the spec's D17, log 4. -/
def Obligations.TimerGrowsOnlyBySetting : Prop :=
  ∀ (s t : State) (w : Word), step s = .next t → s.fetch = .ok w → (∀ x, decodeWord w ≠ some (.stdt x)) →
    t.dt.toNat = s.dt.toNat - s.input.ticks

/-! ### The collaborators -/

/-- R183: CLS asks the display to clear and changes nothing of the Processor State but `pc`. The numbers of the words: the spec's GK1, log
7. -/
def Obligations.ClearScreenOnlyAsks : Prop :=
  ∀ s : State, (encode .cls).toNat = 0x00E0 ∧ ∃ t, exec .cls s = .next t ∧ t.request = some .clear ∧
    MovedOn 2 s t ∧ OnlyRegsAndRequest [] s t

/-- R181: DRW sends the `n` bytes at `I` and the raw coordinates, and writes the display's answer to `V[15]`; or OutOfBounds. The numbers
of the words: the spec's GK1, log 7. That `n = 0` cannot fail: the spec's D11, log 12; the free answer: D21, log 3. -/
def Obligations.DrawSendsTheSprite : Prop :=
  ∀ (s : State) (x y : RegIx) (n : Nibble),
    (encode (.drw x y n)).toNat = 0xD000 + 256 * x.val + 16 * y.val + n.toNat ∧
    (n.toNat = 0 ∨ s.I.toNat + n.toNat - 1 ≤ 4095 → ∃ t sprite, exec (.drw x y n) s = .next t ∧
      t.request = some (.drawSprite (s.reg x) (s.reg y) sprite) ∧ sprite.length = n.toNat ∧
      (∀ j < n.toNat, sprite[j]? = some (s.readByte (s.effectiveAddress j))) ∧
      (t.reg 15).toNat = (if s.input.collided then 1 else 0) ∧
      MovedOn 2 s t ∧ OnlyRegsAndRequest [15] s t) ∧
    (n.toNat > 0 ∧ s.I.toNat + n.toNat - 1 > 4095 → exec (.drw x y n) s = .fault .outOfBounds)

/-- R182: `V[x]` is the random byte masked by `kk`, whatever the byte; so no bit outside `kk` is ever set. The numbers of the words: the
spec's GK1, log 7. The free answer: the spec's D21, log 3. -/
def Obligations.RandomIsMasked : Prop :=
  ∀ (s : State) (x : RegIx) (kk : Byte),
    (encode (.rnd x kk)).toNat = 0xC000 + 256 * x.val + kk.toNat ∧ ∃ t, exec (.rnd x kk) s = .next t ∧
      t.request = some .nextByte ∧
      (∀ b, (t.reg x).getLsbD b = (s.input.randomByte.getLsbD b && kk.getLsbD b)) ∧ t.reg x &&& ~~~kk = 0 ∧
      MovedOn 2 s t ∧ OnlyRegsAndRequest [x] s t

/-- R184: WKEY asks for a held key; with none nothing changes, `pc` included; with one its index goes to `V[x]` and `pc` moves on. The
numbers of the words: the spec's GK1, log 7. The free, unmasked answer: the spec's D12 and D21, log 3, log 18. -/
def Obligations.AwaitKeyPolls : Prop :=
  ∀ (s : State) (x : RegIx),
    (encode (.wkey x)).toNat = 0xF00A + 256 * x.val ∧ ∃ t, exec (.wkey x) s = .next t ∧
      t.request = some .anyKeyDown ∧
      (s.input.anyKey = none → t.toProcessor = s.toProcessor ∧ SameSurroundings s t) ∧
      ∀ k, s.input.anyKey = some k → t.reg x = k ∧ MovedOn 2 s t ∧ OnlyRegsAndRequest [x] s t

/-- R185: cycles of WKEY with no key held leave the whole Processor State as it is, however many; the cycle that sees a key stores it and
moves on once. The answers as listed inputs are the model's: log 3. -/
def Obligations.AwaitKeyWaitsUnchanged : Prop :=
  ∀ (s : State) (w : Word) (x : RegIx) (waiting : List CycleInput) (last : CycleInput) (rest : List CycleInput)
    (k : Byte), s.fetch = .ok w → decodeWord w = some (.wkey x) → s.inputs = waiting ++ last :: rest →
    (∀ i ∈ waiting, i.anyKey = none) → last.anyKey = some k →
    (s.hostRun (List.replicate waiting.length .cycle)).toProcessor = s.toProcessor ∧
    (s.hostRun (List.replicate (waiting.length + 1) .cycle)).toProcessor =
      { s.toProcessor with V := s.V.set x k, pc := s.pc + 2 }

/-- Under the keypad's contract (R180), and only then, what WKEY stores is the lowest held key (R185). The contract is an optional premise
(the spec's D12). -/
def Obligations.AwaitKeyStoresTheLowestKey : Prop :=
  ∀ (s : State) (x : RegIx) (held : RegIx → Bool) (asked : Byte), KeypadContract held asked s.input →
    (∃ k, held k = true) →
    ∃ t, exec (.wkey x) s = .next t ∧
      ∃ k : RegIx, (t.reg x).toNat = k.val ∧ held k = true ∧ ∀ j, held j = true → k ≤ j

/-! ### Rules about the whole machine -/

/-- R201, R202, R203: which instruction fails, with which failure, exactly when; and none is ever refused. The unbounded sums and `n = 0`:
the spec's D10 and D11, log 11, log 12. -/
def Obligations.InstructionsFailExactlyWhen : Prop :=
  ∀ (i : Instr) (s : State),
    (∀ f, exec i s = .fault f ↔
      match i with
      | .call _ => f = .stackOverflow ∧ s.config.stackCapacity ≤ s.sp
      | .ret => f = .stackUnderflow ∧ s.sp = 0
      | .drw _ _ n => f = .outOfBounds ∧ 0 < n.toNat ∧ 4095 < s.I.toNat + n.toNat - 1
      | .bcd _ => f = .outOfBounds ∧ 4095 < s.I.toNat + 2
      | .stm x => f = .outOfBounds ∧ 4095 < s.I.toNat + x.val
      | .ldm x => f = .outOfBounds ∧ 4095 < s.I.toNat + x.val
      | _ => False) ∧
    ∀ r, exec i s ≠ .refused r

/-- R42, R30: every step keeps the invariant, from any state that meets it. Derived by the spec; canonical memory is the model's, log 13.
-/
def Obligations.StepKeepsTheInvariant : Prop :=
  ∀ s t : State, s.Inv → step s = .next t → t.Inv

/-- R42: every operation of the host keeps it too, so every sequence of them does. Derived by the spec; canonical memory is the model's,
log 13. -/
def Obligations.HostOperationsKeepTheInvariant : Prop :=
  ∀ (ops : List HostOp) (s : State), s.Inv → (s.hostRun ops).Inv

/-- The default machine after reset meets the invariant and the bound on `pc`. The default parameters: the spec's D2, D3, D4, log 1. -/
def Obligations.ResetMeetsTheInvariant : Prop :=
  State.reset.Inv ∧ State.reset.PcBounded

/-- R28: `pc` never passes 4350 and no return address passes 4096, so no 16-bit sum on `pc` ever wraps. Derived by the spec from R26 and
R102. -/
def Obligations.StepKeepsPcBounded : Prop :=
  ∀ s t : State, s.PcBounded → step s = .next t → t.PcBounded

/-- R55: only BCD and STM change a byte of memory. Derived from the table of R55. -/
def Obligations.OnlyStoresChangeMemory : Prop :=
  ∀ (s t : State) (w : Word) (a : Nat), step s = .next t → s.fetch = .ok w → t.readByte a ≠ s.readByte a →
    ∃ x, decodeWord w = some (.bcd x) ∨ decodeWord w = some (.stm x)

/-- R29, R30: only LDI, ADDI and FONT change `I`; only CALL and RET change `sp`; only CALL changes a slot. Derived from R29, R30 and the
instruction rules. That RET keeps the popped slot is the spec's own choice: D14, log 9. -/
def Obligations.OnlyTheseChangeIndexAndStack : Prop :=
  ∀ (s t : State) (w : Word), step s = .next t → s.fetch = .ok w →
    (t.I ≠ s.I → (∃ nnn, decodeWord w = some (.ldi nnn)) ∨
      ∃ x, decodeWord w = some (.addi x) ∨ decodeWord w = some (.font x)) ∧
    (t.sp ≠ s.sp → (∃ nnn, decodeWord w = some (.call nnn)) ∨ decodeWord w = some .ret) ∧
    (t.stack ≠ s.stack → ∃ nnn, decodeWord w = some (.call nnn))

/-- R109: the request of a completed step, for every word: six instructions ask, with what, and all others ask nothing. The request as a
field of State is the model's: log 5. -/
def Obligations.RequestsFollowTheTable : Prop :=
  ∀ (s t : State) (w : Word), step s = .next t → s.fetch = .ok w →
    t.request =
      match decodeWord w with
      | some .cls => some .clear
      | some (.drw x y n) => some (.drawSprite (s.reg x) (s.reg y)
          ((List.range n.toNat).map fun j => s.readByte (s.I.toNat + j)))
      | some (.rnd _ _) => some .nextByte
      | some (.skp x) => some (.isKeyDown (s.reg x))
      | some (.sknp x) => some (.isKeyDown (s.reg x))
      | some (.wkey _) => some .anyKeyDown
      | _ => none

/-- R109, D21: whether the machine goes on, and how it fails, depends on no answer and no tick: other inputs give the same kind of
outcome. The spec's D21, log 3. -/
def Obligations.NoAnswerDecidesWhetherItGoesOn : Prop :=
  ∀ (s : State) (ins : List CycleInput) (c : Nat),
    (s.Steps ↔ State.Steps { s with inputs := ins, cycleNo := c }) ∧
    ∀ f, step s = .fault f ↔ step { s with inputs := ins, cycleNo := c } = .fault f

/-- R31: slots at and above `sp` are visible to no instruction: states that differ only there step alike, and go on differing only there.
Derived by the spec from R121 and R122. -/
def Obligations.DeadStackSlotsAreInvisible : Prop :=
  ∀ s s' : State, SameVisible s s' →
    (∀ f, step s = .fault f ↔ step s' = .fault f) ∧
    ∀ t, step s = .next t → ∃ t', step s' = .next t' ∧ SameVisible t t'

/-- R235: at a jump to itself every further cycle succeeds and leaves the whole Processor State as it is; no step ever fails. The spec's
GK10 and D22, log 17. -/
def Obligations.JumpToSelfIsAFixedPoint : Prop :=
  ∀ (s : State) (n : Nat), s.AtEnd →
    (s.hostRun (List.replicate n .cycle)).toProcessor = s.toProcessor ∧
    (s.hostRun (List.replicate n .cycle)).cycle.2 = .ok ∧ s.SafeFor n

/-! ### Reset, load, power-on -/

/-- R39, R231: what the host's reset leaves, from any state; nothing of the old Processor State survives. -/
def Obligations.ResetLeavesTheRunReadyState : Prop :=
  ∀ s : State,
    (∀ r, s.hostReset.reg r = 0) ∧ s.hostReset.I = 0 ∧ s.hostReset.pc = s.config.entry ∧ s.hostReset.sp = 0 ∧
    s.hostReset.stack.length = s.config.stackCapacity ∧ (∀ a ∈ s.hostReset.stack, a = 0) ∧ s.hostReset.dt = 0 ∧
    (∀ j < s.config.font.length, s.config.font[j]? = some (s.hostReset.readByte (s.config.fontBase + j))) ∧
    (∀ a, a < s.config.fontBase ∨ s.config.fontBase + s.config.font.length ≤ a → s.hostReset.readByte a = 0) ∧
    s.hostReset.request = none ∧
    ∀ s' : State, s'.config = s.config → s'.hostReset.toProcessor = s.hostReset.toProcessor

/-- R233, R66: before the first cycle a fitting image is placed at ENTRY, byte by byte, and nothing else changes; one that does not fit is
not loaded (U16), and nothing is loaded once a cycle has been invoked, failed or not (D1). Refusing is the model's
reading, and so is that a failed cycle counts: log 15. -/
def Obligations.LoadPlacesTheImage : Prop :=
  ∀ (s : State) (image : List Byte),
    (s.started = false → s.config.entry.toNat + image.length ≤ 4096 → ∃ t, s.load image = some t ∧
      (∀ j < image.length, image[j]? = some (t.readByte (s.config.entry.toNat + j))) ∧
      SameMemoryBut s.config.entry.toNat image.length s t ∧ t = { s with mem := t.mem }) ∧
    (4096 < s.config.entry.toNat + image.length → s.load image = none) ∧
    (s.started = true → s.load image = none) ∧
    s.cycle.1.load image = none ∧
    s.hostReset.started = false

/-- R38: at power-on every element of the Processor State is zero, every byte of memory included; the invariant holds. The parameters it
keeps are the model's: log 1. -/
def Obligations.PowerOnIsAllZero : Prop :=
  ∀ c : Config, c.WellFormed →
    (∀ r, (State.powerOn c).reg r = 0) ∧ (State.powerOn c).I = 0 ∧ (State.powerOn c).pc = 0 ∧
    (State.powerOn c).sp = 0 ∧ (∀ j, (State.powerOn c).slot j = 0) ∧ (State.powerOn c).dt = 0 ∧
    (∀ a, (State.powerOn c).readByte a = 0) ∧ (State.powerOn c).Inv
end

