-- ==== Sys2Proof/Laws/Decode.lean ====
section
/-! SUPPORT. What the fields of a composed word are, and the encodings in numbers: what the proofs about decoding rest on. -/

namespace Sys2Proof

/-- Concatenation in numbers. -/
theorem append_toNat {m n : Nat} (a : BitVec m) (b : BitVec n) : (a ++ b).toNat = a.toNat * 2 ^ n + b.toNat := by
  rw [BitVec.toNat_append, ← Nat.shiftLeft_add_eq_or_of_lt b.isLt, Nat.shiftLeft_eq]

/-- A bit field in numbers. -/
theorem field_toNat {m : Nat} (w : BitVec m) (lo len : Nat) :
    (w.extractLsb' lo len).toNat = w.toNat / 2 ^ lo % 2 ^ len := by
  rw [BitVec.extractLsb'_toNat, Nat.shiftRight_eq_div_pow]

/-- A composed word in numbers. -/
theorem wordOfNibbles_toNat (a b c d : Nibble) :
    (wordOfNibbles a b c d).toNat = 4096 * a.toNat + 256 * b.toNat + 16 * c.toNat + d.toNat := by
  simp only [wordOfNibbles, append_toNat]
  omega

/-- The fields of a word made of four nibbles. -/
theorem describe_wordOfNibbles (a b c d : Nibble) :
    describe (wordOfNibbles a b c d) = ⟨a, b, c, d, b.toFin, c.toFin, b ++ (c ++ d), c ++ d, d⟩ := by
  have ha := a.isLt
  have hb := b.isLt
  have hc := c.isLt
  have hd := d.isLt
  have h1 : (wordOfNibbles a b c d).extractLsb' 12 4 = a := by
    apply BitVec.eq_of_toNat_eq; rw [field_toNat, wordOfNibbles_toNat]; omega
  have h2 : (wordOfNibbles a b c d).extractLsb' 8 4 = b := by
    apply BitVec.eq_of_toNat_eq; rw [field_toNat, wordOfNibbles_toNat]; omega
  have h3 : (wordOfNibbles a b c d).extractLsb' 4 4 = c := by
    apply BitVec.eq_of_toNat_eq; rw [field_toNat, wordOfNibbles_toNat]; omega
  have h4 : (wordOfNibbles a b c d).extractLsb' 0 4 = d := by
    apply BitVec.eq_of_toNat_eq; rw [field_toNat, wordOfNibbles_toNat]; omega
  have h5 : (wordOfNibbles a b c d).extractLsb' 0 12 = b ++ (c ++ d) := by
    apply BitVec.eq_of_toNat_eq; rw [field_toNat, wordOfNibbles_toNat, append_toNat, append_toNat]; omega
  have h6 : (wordOfNibbles a b c d).extractLsb' 0 8 = c ++ d := by
    apply BitVec.eq_of_toNat_eq; rw [field_toNat, wordOfNibbles_toNat, append_toNat]; omega
  simp only [describe, h1, h2, h3, h4, h5, h6]

/-- Every word is made of its four nibbles. -/
theorem wordOfNibbles_describe (w : Word) :
    wordOfNibbles (describe w).op1 (describe w).op2 (describe w).op3 (describe w).op4 = w := by
  have hw := w.isLt
  apply BitVec.eq_of_toNat_eq
  rw [wordOfNibbles_toNat]
  simp only [describe, field_toNat]
  omega

@[simp] theorem selector_toFin (x : RegIx) : (selector x).toFin = x := rfl

@[simp] theorem selector_toNat (x : RegIx) : (selector x).toNat = x.val := rfl

/-- A word of format `A` in numbers. -/
theorem encodeA_toNat (op : Nibble) (nnn : Addr) : (encodeA op nnn).toNat = 4096 * op.toNat + nnn.toNat := by
  rw [encodeA, append_toNat]
  omega

/-- A word of format `XK` in numbers. -/
theorem encodeXK_toNat (op : Nibble) (x : RegIx) (kk : Byte) :
    (encodeXK op x kk).toNat = 4096 * op.toNat + 256 * x.val + kk.toNat := by
  rw [encodeXK, append_toNat, append_toNat, selector_toNat]
  omega

/-- A word of formats `XY` and `XYN` in numbers. -/
theorem encodeXYN_toNat (op : Nibble) (x y : RegIx) (n : Nibble) :
    (encodeXYN op x y n).toNat = 4096 * op.toNat + 256 * x.val + 16 * y.val + n.toNat :=
  wordOfNibbles_toNat _ _ _ _

/-- A word of format `X` in numbers. -/
theorem encodeX_toNat (op : Nibble) (x : RegIx) (c d : Nibble) :
    (encodeX op x c d).toNat = 4096 * op.toNat + 256 * x.val + 16 * c.toNat + d.toNat :=
  wordOfNibbles_toNat _ _ _ _

/-- A 12-bit address is made of three nibbles, so a word of format `A` is made of four. -/
theorem encodeA_eq (op : Nibble) (nnn : Addr) :
    encodeA op nnn = wordOfNibbles op (nnn.extractLsb' 8 4) (nnn.extractLsb' 4 4) (nnn.extractLsb' 0 4) := by
  have hn := nnn.isLt
  apply BitVec.eq_of_toNat_eq
  rw [encodeA_toNat, wordOfNibbles_toNat, field_toNat, field_toNat, field_toNat]
  omega

/-- A word of format `XK` is made of four nibbles. -/
theorem encodeXK_eq (op : Nibble) (x : RegIx) (kk : Byte) :
    encodeXK op x kk = wordOfNibbles op (selector x) (kk.extractLsb' 4 4) (kk.extractLsb' 0 4) := by
  have hk := kk.isLt
  apply BitVec.eq_of_toNat_eq
  rw [encodeXK_toNat, wordOfNibbles_toNat, selector_toNat, field_toNat, field_toNat]
  omega

/-- The two bytes of a word make the word again. -/
theorem wordOfBytes_bytesOfWord (w : Word) : wordOfBytes (w.extractLsb' 8 8) (w.extractLsb' 0 8) = w := by
  have hw := w.isLt
  apply BitVec.eq_of_toNat_eq
  rw [wordOfBytes, append_toNat, field_toNat, field_toNat]
  omega

/-- A fetched word in numbers: the byte at the lower address is the high one. -/
theorem wordOfBytes_toNat (hi lo : Byte) : (wordOfBytes hi lo).toNat = hi.toNat * 256 + lo.toNat :=
  append_toNat hi lo

end Sys2Proof
end

