-- ==== Sys2Proof/Laws/Memory.lean ====
section
/-! SUPPORT. The laws of memory as a list: reading after a write, and that every write keeps the canonical form. -/

namespace Sys2Proof.Machine

variable {bg : Nat → Byte}

@[simp] theorem Memory.read_nil (a : Nat) : Memory.read bg [] a = bg a := rfl

@[simp] theorem Memory.read_cons (c : Host.Cell) (m : Memory) (a : Nat) :
    Memory.read bg (c :: m) a = if c.1 = a then c.2 else Memory.read bg m a := rfl

/-- An address that no entry names reads as the background. -/
theorem Memory.read_of_not_listed {m : Memory} {a : Nat} (h : ∀ c ∈ m, c.1 ≠ a) : Memory.read bg m a = bg a := by
  induction m with
  | nil => rfl
  | cons c m ih =>
    rw [Memory.read_cons, if_neg (h c (by simp)), ih fun d hd => h d (by simp [hd])]

theorem Memory.mem_erase {m : Memory} {a : Nat} {c : Host.Cell} : c ∈ Memory.erase m a ↔ c ∈ m ∧ c.1 ≠ a := by
  simp [Memory.erase]

theorem Memory.read_erase (m : Memory) (a b : Nat) :
    Memory.read bg (Memory.erase m a) b = if b = a then bg a else Memory.read bg m b := by
  split
  · next h =>
    subst h
    exact Memory.read_of_not_listed fun c hc => (Memory.mem_erase.1 hc).2
  · next h =>
    induction m with
    | nil => rfl
    | cons c m ih =>
      by_cases hc : c.1 = a
      · rw [Memory.read_cons, if_neg (by omega), ← ih, Memory.erase, List.filter_cons_of_neg (by simpa using hc)]
        rfl
      · rw [Memory.erase, List.filter_cons_of_pos (by simpa using hc), Memory.read_cons, Memory.read_cons]
        exact ite_congr rfl (fun _ => rfl) fun _ => ih

theorem Memory.mem_insert {m : Memory} {c d : Host.Cell} : d ∈ Memory.insert m c ↔ d = c ∨ d ∈ m := by
  induction m with
  | nil => simp [Memory.insert]
  | cons e m ih =>
    rw [Memory.insert]
    split <;> simp [ih, or_left_comm]

theorem Memory.read_insert {m : Memory} {c : Host.Cell} (h : ∀ d ∈ m, d.1 ≠ c.1) (b : Nat) :
    Memory.read bg (Memory.insert m c) b = if b = c.1 then c.2 else Memory.read bg m b := by
  induction m with
  | nil => simp [Memory.insert, eq_comm]
  | cons e m ih =>
    have he := h e (by simp)
    rw [Memory.insert]
    split
    · simp [eq_comm]
    · rw [Memory.read_cons, ih fun d hd => h d (by simp [hd]), Memory.read_cons]
      split_ifs <;> first | rfl | omega

/-- The law of one written byte: it reads back, and every other address reads as before. -/
@[simp] theorem Memory.read_write (m : Memory) (a b : Nat) (v : Byte) :
    Memory.read bg (Memory.write bg m a v) b = if b = a then v else Memory.read bg m b := by
  rw [Memory.write]
  split
  · next h => rw [Memory.read_erase, h]
  · have h : ∀ d ∈ Memory.erase m a, d.1 ≠ ((a, v) : Host.Cell).1 := fun d hd => (Memory.mem_erase.1 hd).2
    rw [Memory.read_insert h, Memory.read_erase]
    split_ifs <;> rfl

theorem Memory.sorted_insert {m : Memory} {c : Host.Cell} (h : ∀ d ∈ m, d.1 ≠ c.1)
    (hm : m.Pairwise fun c d => c.1 < d.1) : (Memory.insert m c).Pairwise fun c d => c.1 < d.1 := by
  induction m with
  | nil => simp [Memory.insert]
  | cons e m ih =>
    have he := h e (by simp)
    obtain ⟨h1, h2⟩ := List.pairwise_cons.1 hm
    rw [Memory.insert]
    split
    · next hlt =>
      refine List.pairwise_cons.2 ⟨fun d hd => ?_, hm⟩
      rcases List.mem_cons.1 hd with rfl | hd
      · exact hlt
      · exact hlt.trans (h1 d hd)
    · refine List.pairwise_cons.2 ⟨fun d hd => ?_, ih (fun d hd => h d (by simp [hd])) h2⟩
      rcases Memory.mem_insert.1 hd with rfl | hd
      · omega
      · exact h1 d hd

/-- Memory right after reset lists nothing and is canonical. -/
theorem Memory.wf_nil : Memory.wf bg [] := by simp [Memory.wf]

/-- Every write inside `0..4095` keeps the canonical form. -/
theorem Memory.wf_write {m : Memory} (hm : Memory.wf bg m) {a : Nat} (ha : a < memSize) (v : Byte) :
    Memory.wf bg (Memory.write bg m a v) := by
  have hsorted : (Memory.erase m a).Pairwise fun c d => c.1 < d.1 := hm.1.filter _
  have hcells : ∀ c ∈ Memory.erase m a, c.1 < memSize ∧ c.2 ≠ bg c.1 := fun c hc => hm.2 c (Memory.mem_erase.1 hc).1
  rw [Memory.write]
  split
  · exact ⟨hsorted, hcells⟩
  · next hv =>
    refine ⟨Memory.sorted_insert (fun d hd => (Memory.mem_erase.1 hd).2) hsorted, fun c hc => ?_⟩
    rcases Memory.mem_insert.1 hc with rfl | hc
    · exact ⟨ha, hv⟩
    · exact hcells c hc

end Sys2Proof.Machine
end

