-- ==== Sys2Proof/Laws/State.lean ====
section
/-! SUPPORT. One lemma per field per update, each true by `rfl`: what an operation of Machine/Ops.lean, Timer.lean or Cycle.lean does to each field of
State. Later proofs never unfold a record update. -/

namespace Sys2Proof.Machine

/-! ### setReg -/

@[simp] theorem State.setReg_V (s : State) (r : RegIx) (v : Byte) : (s.setReg r v).V = s.V.set r v := rfl
@[simp] theorem State.setReg_I (s : State) (r : RegIx) (v : Byte) : (s.setReg r v).I = s.I := rfl
@[simp] theorem State.setReg_pc (s : State) (r : RegIx) (v : Byte) : (s.setReg r v).pc = s.pc := rfl
@[simp] theorem State.setReg_stack (s : State) (r : RegIx) (v : Byte) : (s.setReg r v).stack = s.stack := rfl
@[simp] theorem State.setReg_sp (s : State) (r : RegIx) (v : Byte) : (s.setReg r v).sp = s.sp := rfl
@[simp] theorem State.setReg_dt (s : State) (r : RegIx) (v : Byte) : (s.setReg r v).dt = s.dt := rfl
@[simp] theorem State.setReg_mem (s : State) (r : RegIx) (v : Byte) : (s.setReg r v).mem = s.mem := rfl
@[simp] theorem State.setReg_config (s : State) (r : RegIx) (v : Byte) : (s.setReg r v).config = s.config := rfl
@[simp] theorem State.setReg_inputs (s : State) (r : RegIx) (v : Byte) : (s.setReg r v).inputs = s.inputs := rfl
@[simp] theorem State.setReg_cycleNo (s : State) (r : RegIx) (v : Byte) : (s.setReg r v).cycleNo = s.cycleNo := rfl
@[simp] theorem State.setReg_started (s : State) (r : RegIx) (v : Byte) : (s.setReg r v).started = s.started := rfl
@[simp] theorem State.setReg_request (s : State) (r : RegIx) (v : Byte) : (s.setReg r v).request = s.request := rfl
@[simp] theorem State.setReg_unknown (s : State) (r : RegIx) (v : Byte) : (s.setReg r v).unknown = s.unknown := rfl

/-! ### loadRegs -/

@[simp] theorem State.loadRegs_V (s : State) (bs : List Byte) : (s.loadRegs bs).V = storeInRegs s.V 0 bs := rfl
@[simp] theorem State.loadRegs_I (s : State) (bs : List Byte) : (s.loadRegs bs).I = s.I := rfl
@[simp] theorem State.loadRegs_pc (s : State) (bs : List Byte) : (s.loadRegs bs).pc = s.pc := rfl
@[simp] theorem State.loadRegs_stack (s : State) (bs : List Byte) : (s.loadRegs bs).stack = s.stack := rfl
@[simp] theorem State.loadRegs_sp (s : State) (bs : List Byte) : (s.loadRegs bs).sp = s.sp := rfl
@[simp] theorem State.loadRegs_dt (s : State) (bs : List Byte) : (s.loadRegs bs).dt = s.dt := rfl
@[simp] theorem State.loadRegs_mem (s : State) (bs : List Byte) : (s.loadRegs bs).mem = s.mem := rfl
@[simp] theorem State.loadRegs_config (s : State) (bs : List Byte) : (s.loadRegs bs).config = s.config := rfl
@[simp] theorem State.loadRegs_inputs (s : State) (bs : List Byte) : (s.loadRegs bs).inputs = s.inputs := rfl
@[simp] theorem State.loadRegs_cycleNo (s : State) (bs : List Byte) : (s.loadRegs bs).cycleNo = s.cycleNo := rfl
@[simp] theorem State.loadRegs_started (s : State) (bs : List Byte) : (s.loadRegs bs).started = s.started := rfl
@[simp] theorem State.loadRegs_request (s : State) (bs : List Byte) : (s.loadRegs bs).request = s.request := rfl
@[simp] theorem State.loadRegs_unknown (s : State) (bs : List Byte) : (s.loadRegs bs).unknown = s.unknown := rfl

/-! ### setIndex -/

@[simp] theorem State.setIndex_V (s : State) (v : Word) : (s.setIndex v).V = s.V := rfl
@[simp] theorem State.setIndex_I (s : State) (v : Word) : (s.setIndex v).I = v := rfl
@[simp] theorem State.setIndex_pc (s : State) (v : Word) : (s.setIndex v).pc = s.pc := rfl
@[simp] theorem State.setIndex_stack (s : State) (v : Word) : (s.setIndex v).stack = s.stack := rfl
@[simp] theorem State.setIndex_sp (s : State) (v : Word) : (s.setIndex v).sp = s.sp := rfl
@[simp] theorem State.setIndex_dt (s : State) (v : Word) : (s.setIndex v).dt = s.dt := rfl
@[simp] theorem State.setIndex_mem (s : State) (v : Word) : (s.setIndex v).mem = s.mem := rfl
@[simp] theorem State.setIndex_config (s : State) (v : Word) : (s.setIndex v).config = s.config := rfl
@[simp] theorem State.setIndex_inputs (s : State) (v : Word) : (s.setIndex v).inputs = s.inputs := rfl
@[simp] theorem State.setIndex_cycleNo (s : State) (v : Word) : (s.setIndex v).cycleNo = s.cycleNo := rfl
@[simp] theorem State.setIndex_started (s : State) (v : Word) : (s.setIndex v).started = s.started := rfl
@[simp] theorem State.setIndex_request (s : State) (v : Word) : (s.setIndex v).request = s.request := rfl
@[simp] theorem State.setIndex_unknown (s : State) (v : Word) : (s.setIndex v).unknown = s.unknown := rfl

/-! ### setTimer -/

@[simp] theorem State.setTimer_V (s : State) (v : Byte) : (s.setTimer v).V = s.V := rfl
@[simp] theorem State.setTimer_I (s : State) (v : Byte) : (s.setTimer v).I = s.I := rfl
@[simp] theorem State.setTimer_pc (s : State) (v : Byte) : (s.setTimer v).pc = s.pc := rfl
@[simp] theorem State.setTimer_stack (s : State) (v : Byte) : (s.setTimer v).stack = s.stack := rfl
@[simp] theorem State.setTimer_sp (s : State) (v : Byte) : (s.setTimer v).sp = s.sp := rfl
@[simp] theorem State.setTimer_dt (s : State) (v : Byte) : (s.setTimer v).dt = v := rfl
@[simp] theorem State.setTimer_mem (s : State) (v : Byte) : (s.setTimer v).mem = s.mem := rfl
@[simp] theorem State.setTimer_config (s : State) (v : Byte) : (s.setTimer v).config = s.config := rfl
@[simp] theorem State.setTimer_inputs (s : State) (v : Byte) : (s.setTimer v).inputs = s.inputs := rfl
@[simp] theorem State.setTimer_cycleNo (s : State) (v : Byte) : (s.setTimer v).cycleNo = s.cycleNo := rfl
@[simp] theorem State.setTimer_started (s : State) (v : Byte) : (s.setTimer v).started = s.started := rfl
@[simp] theorem State.setTimer_request (s : State) (v : Byte) : (s.setTimer v).request = s.request := rfl
@[simp] theorem State.setTimer_unknown (s : State) (v : Byte) : (s.setTimer v).unknown = s.unknown := rfl

/-! ### jump -/

@[simp] theorem State.jump_V (s : State) (p : Word) : (s.jump p).V = s.V := rfl
@[simp] theorem State.jump_I (s : State) (p : Word) : (s.jump p).I = s.I := rfl
@[simp] theorem State.jump_pc (s : State) (p : Word) : (s.jump p).pc = p := rfl
@[simp] theorem State.jump_stack (s : State) (p : Word) : (s.jump p).stack = s.stack := rfl
@[simp] theorem State.jump_sp (s : State) (p : Word) : (s.jump p).sp = s.sp := rfl
@[simp] theorem State.jump_dt (s : State) (p : Word) : (s.jump p).dt = s.dt := rfl
@[simp] theorem State.jump_mem (s : State) (p : Word) : (s.jump p).mem = s.mem := rfl
@[simp] theorem State.jump_config (s : State) (p : Word) : (s.jump p).config = s.config := rfl
@[simp] theorem State.jump_inputs (s : State) (p : Word) : (s.jump p).inputs = s.inputs := rfl
@[simp] theorem State.jump_cycleNo (s : State) (p : Word) : (s.jump p).cycleNo = s.cycleNo := rfl
@[simp] theorem State.jump_started (s : State) (p : Word) : (s.jump p).started = s.started := rfl
@[simp] theorem State.jump_request (s : State) (p : Word) : (s.jump p).request = s.request := rfl
@[simp] theorem State.jump_unknown (s : State) (p : Word) : (s.jump p).unknown = s.unknown := rfl

/-! ### advance -/

@[simp] theorem State.advance_V (s : State) : (s.advance).V = s.V := rfl
@[simp] theorem State.advance_I (s : State) : (s.advance).I = s.I := rfl
@[simp] theorem State.advance_pc (s : State) : (s.advance).pc = s.npc := rfl
@[simp] theorem State.advance_stack (s : State) : (s.advance).stack = s.stack := rfl
@[simp] theorem State.advance_sp (s : State) : (s.advance).sp = s.sp := rfl
@[simp] theorem State.advance_dt (s : State) : (s.advance).dt = s.dt := rfl
@[simp] theorem State.advance_mem (s : State) : (s.advance).mem = s.mem := rfl
@[simp] theorem State.advance_config (s : State) : (s.advance).config = s.config := rfl
@[simp] theorem State.advance_inputs (s : State) : (s.advance).inputs = s.inputs := rfl
@[simp] theorem State.advance_cycleNo (s : State) : (s.advance).cycleNo = s.cycleNo := rfl
@[simp] theorem State.advance_started (s : State) : (s.advance).started = s.started := rfl
@[simp] theorem State.advance_request (s : State) : (s.advance).request = s.request := rfl
@[simp] theorem State.advance_unknown (s : State) : (s.advance).unknown = s.unknown := rfl

/-! ### skipIf -/

@[simp] theorem State.skipIf_V (s : State) (c : Bool) : (s.skipIf c).V = s.V := rfl
@[simp] theorem State.skipIf_I (s : State) (c : Bool) : (s.skipIf c).I = s.I := rfl
@[simp] theorem State.skipIf_pc (s : State) (c : Bool) : (s.skipIf c).pc = if c then s.npc + 2 else s.npc := rfl
@[simp] theorem State.skipIf_stack (s : State) (c : Bool) : (s.skipIf c).stack = s.stack := rfl
@[simp] theorem State.skipIf_sp (s : State) (c : Bool) : (s.skipIf c).sp = s.sp := rfl
@[simp] theorem State.skipIf_dt (s : State) (c : Bool) : (s.skipIf c).dt = s.dt := rfl
@[simp] theorem State.skipIf_mem (s : State) (c : Bool) : (s.skipIf c).mem = s.mem := rfl
@[simp] theorem State.skipIf_config (s : State) (c : Bool) : (s.skipIf c).config = s.config := rfl
@[simp] theorem State.skipIf_inputs (s : State) (c : Bool) : (s.skipIf c).inputs = s.inputs := rfl
@[simp] theorem State.skipIf_cycleNo (s : State) (c : Bool) : (s.skipIf c).cycleNo = s.cycleNo := rfl
@[simp] theorem State.skipIf_started (s : State) (c : Bool) : (s.skipIf c).started = s.started := rfl
@[simp] theorem State.skipIf_request (s : State) (c : Bool) : (s.skipIf c).request = s.request := rfl
@[simp] theorem State.skipIf_unknown (s : State) (c : Bool) : (s.skipIf c).unknown = s.unknown := rfl

/-! ### ask -/

@[simp] theorem State.ask_V (s : State) (q : Request) : (s.ask q).V = s.V := rfl
@[simp] theorem State.ask_I (s : State) (q : Request) : (s.ask q).I = s.I := rfl
@[simp] theorem State.ask_pc (s : State) (q : Request) : (s.ask q).pc = s.pc := rfl
@[simp] theorem State.ask_stack (s : State) (q : Request) : (s.ask q).stack = s.stack := rfl
@[simp] theorem State.ask_sp (s : State) (q : Request) : (s.ask q).sp = s.sp := rfl
@[simp] theorem State.ask_dt (s : State) (q : Request) : (s.ask q).dt = s.dt := rfl
@[simp] theorem State.ask_mem (s : State) (q : Request) : (s.ask q).mem = s.mem := rfl
@[simp] theorem State.ask_config (s : State) (q : Request) : (s.ask q).config = s.config := rfl
@[simp] theorem State.ask_inputs (s : State) (q : Request) : (s.ask q).inputs = s.inputs := rfl
@[simp] theorem State.ask_cycleNo (s : State) (q : Request) : (s.ask q).cycleNo = s.cycleNo := rfl
@[simp] theorem State.ask_started (s : State) (q : Request) : (s.ask q).started = s.started := rfl
@[simp] theorem State.ask_request (s : State) (q : Request) : (s.ask q).request = some q := rfl
@[simp] theorem State.ask_unknown (s : State) (q : Request) : (s.ask q).unknown = s.unknown := rfl

/-! ### writeByte -/

@[simp] theorem State.writeByte_V (s : State) (a : Nat) (v : Byte) : (s.writeByte a v).V = s.V := rfl
@[simp] theorem State.writeByte_I (s : State) (a : Nat) (v : Byte) : (s.writeByte a v).I = s.I := rfl
@[simp] theorem State.writeByte_pc (s : State) (a : Nat) (v : Byte) : (s.writeByte a v).pc = s.pc := rfl
@[simp] theorem State.writeByte_stack (s : State) (a : Nat) (v : Byte) : (s.writeByte a v).stack = s.stack := rfl
@[simp] theorem State.writeByte_sp (s : State) (a : Nat) (v : Byte) : (s.writeByte a v).sp = s.sp := rfl
@[simp] theorem State.writeByte_dt (s : State) (a : Nat) (v : Byte) : (s.writeByte a v).dt = s.dt := rfl
@[simp] theorem State.writeByte_mem (s : State) (a : Nat) (v : Byte) : (s.writeByte a v).mem = Memory.write (resetByte s.config) s.mem a v := rfl
@[simp] theorem State.writeByte_config (s : State) (a : Nat) (v : Byte) : (s.writeByte a v).config = s.config := rfl
@[simp] theorem State.writeByte_inputs (s : State) (a : Nat) (v : Byte) : (s.writeByte a v).inputs = s.inputs := rfl
@[simp] theorem State.writeByte_cycleNo (s : State) (a : Nat) (v : Byte) : (s.writeByte a v).cycleNo = s.cycleNo := rfl
@[simp] theorem State.writeByte_started (s : State) (a : Nat) (v : Byte) : (s.writeByte a v).started = s.started := rfl
@[simp] theorem State.writeByte_request (s : State) (a : Nat) (v : Byte) : (s.writeByte a v).request = s.request := rfl
@[simp] theorem State.writeByte_unknown (s : State) (a : Nat) (v : Byte) : (s.writeByte a v).unknown = s.unknown := rfl

/-! ### beginCycle -/

@[simp] theorem State.beginCycle_V (s : State) : (s.beginCycle).V = s.V := rfl
@[simp] theorem State.beginCycle_I (s : State) : (s.beginCycle).I = s.I := rfl
@[simp] theorem State.beginCycle_pc (s : State) : (s.beginCycle).pc = s.pc := rfl
@[simp] theorem State.beginCycle_stack (s : State) : (s.beginCycle).stack = s.stack := rfl
@[simp] theorem State.beginCycle_sp (s : State) : (s.beginCycle).sp = s.sp := rfl
@[simp] theorem State.beginCycle_dt (s : State) : (s.beginCycle).dt = s.dt := rfl
@[simp] theorem State.beginCycle_mem (s : State) : (s.beginCycle).mem = s.mem := rfl
@[simp] theorem State.beginCycle_config (s : State) : (s.beginCycle).config = s.config := rfl
@[simp] theorem State.beginCycle_inputs (s : State) : (s.beginCycle).inputs = s.inputs := rfl
@[simp] theorem State.beginCycle_cycleNo (s : State) : (s.beginCycle).cycleNo = s.cycleNo := rfl
@[simp] theorem State.beginCycle_started (s : State) : (s.beginCycle).started = true := rfl
@[simp] theorem State.beginCycle_request (s : State) : (s.beginCycle).request = none := rfl
@[simp] theorem State.beginCycle_unknown (s : State) : (s.beginCycle).unknown = none := rfl

/-! ### nextInput -/

@[simp] theorem State.nextInput_V (s : State) : (s.nextInput).V = s.V := rfl
@[simp] theorem State.nextInput_I (s : State) : (s.nextInput).I = s.I := rfl
@[simp] theorem State.nextInput_pc (s : State) : (s.nextInput).pc = s.pc := rfl
@[simp] theorem State.nextInput_stack (s : State) : (s.nextInput).stack = s.stack := rfl
@[simp] theorem State.nextInput_sp (s : State) : (s.nextInput).sp = s.sp := rfl
@[simp] theorem State.nextInput_dt (s : State) : (s.nextInput).dt = s.dt := rfl
@[simp] theorem State.nextInput_mem (s : State) : (s.nextInput).mem = s.mem := rfl
@[simp] theorem State.nextInput_config (s : State) : (s.nextInput).config = s.config := rfl
@[simp] theorem State.nextInput_inputs (s : State) : (s.nextInput).inputs = s.inputs.tail := rfl
@[simp] theorem State.nextInput_cycleNo (s : State) : (s.nextInput).cycleNo = s.cycleNo + 1 := rfl
@[simp] theorem State.nextInput_started (s : State) : (s.nextInput).started = s.started := rfl
@[simp] theorem State.nextInput_request (s : State) : (s.nextInput).request = s.request := rfl
@[simp] theorem State.nextInput_unknown (s : State) : (s.nextInput).unknown = s.unknown := rfl

/-! ### ticks -/

@[simp] theorem State.ticks_V (s : State) (n : Nat) : (s.ticks n).V = s.V := rfl
@[simp] theorem State.ticks_I (s : State) (n : Nat) : (s.ticks n).I = s.I := rfl
@[simp] theorem State.ticks_pc (s : State) (n : Nat) : (s.ticks n).pc = s.pc := rfl
@[simp] theorem State.ticks_stack (s : State) (n : Nat) : (s.ticks n).stack = s.stack := rfl
@[simp] theorem State.ticks_sp (s : State) (n : Nat) : (s.ticks n).sp = s.sp := rfl
@[simp] theorem State.ticks_dt (s : State) (n : Nat) : (s.ticks n).dt = timerAfter n s.dt := rfl
@[simp] theorem State.ticks_mem (s : State) (n : Nat) : (s.ticks n).mem = s.mem := rfl
@[simp] theorem State.ticks_config (s : State) (n : Nat) : (s.ticks n).config = s.config := rfl
@[simp] theorem State.ticks_inputs (s : State) (n : Nat) : (s.ticks n).inputs = s.inputs := rfl
@[simp] theorem State.ticks_cycleNo (s : State) (n : Nat) : (s.ticks n).cycleNo = s.cycleNo := rfl
@[simp] theorem State.ticks_started (s : State) (n : Nat) : (s.ticks n).started = s.started := rfl
@[simp] theorem State.ticks_request (s : State) (n : Nat) : (s.ticks n).request = s.request := rfl
@[simp] theorem State.ticks_unknown (s : State) (n : Nat) : (s.ticks n).unknown = s.unknown := rfl

end Sys2Proof.Machine
end

