-- ==== Sys2Proof/Laws/Ops.lean ====
section
/-! SUPPORT. One lemma per shared operation: everything it can do. Proofs cite these and do not unfold the operations. -/

namespace Sys2Proof.Machine

/-! ### Registers -/

@[simp] theorem State.setReg_reg (s : State) (r q : RegIx) (v : Byte) :
    (s.setReg r v).reg q = if q = r then v else s.reg q := by
  simp only [State.reg, State.setReg_V, Fin.getElem_fin, Vector.getElem_set, Fin.ext_iff, eq_comm]

/-- Registers stored in a row: those in range get their byte, the others keep their value. -/
theorem storeInRegs_getElem (V : Vector Byte 16) (k : Nat) (bs : List Byte) (q : RegIx) :
    (storeInRegs V k bs)[q] = if k ≤ q.val then bs.getD (q.val - k) V[q] else V[q] := by
  induction bs generalizing V k with
  | nil => simp [storeInRegs]
  | cons b bs ih =>
    rw [storeInRegs, ih, Fin.getElem_fin, Fin.getElem_fin, Vector.getElem_setIfInBounds]
    rcases Nat.lt_trichotomy k q.val with h | h | h
    · have hsub : q.val - k = q.val - (k + 1) + 1 := by omega
      rw [if_pos (by omega), if_neg (by omega), if_pos (by omega), hsub, List.getD_cons_succ]
    · rw [if_neg (by omega), if_pos h, if_pos (by omega), h, Nat.sub_self, List.getD_cons_zero]
    · rw [if_neg (by omega), if_neg (by omega), if_neg (by omega)]

@[simp] theorem State.loadRegs_reg (s : State) (bs : List Byte) (q : RegIx) :
    (s.loadRegs bs).reg q = bs.getD q.val (s.reg q) := by
  rw [State.reg, State.loadRegs_V, storeInRegs_getElem, if_pos (Nat.zero_le _), Nat.sub_zero, State.reg]

theorem State.regsUpTo_length (s : State) (x : RegIx) : (s.regsUpTo x).length = x.val + 1 := by
  simp [State.regsUpTo]

/-- Entry `j` of `[V[0], ..., V[x]]` is `V[j]`. -/
theorem State.regsUpTo_getElem? (s : State) (x j : RegIx) (h : j ≤ x) : (s.regsUpTo x)[j.val]? = some (s.reg j) := by
  have hj : j.val < x.val + 1 := Nat.lt_succ_of_le h
  rw [State.regsUpTo, List.getElem?_ofFn, dif_pos hj]

/-- Two states with the same registers read the same registers. -/
theorem State.reg_congr {s t : State} (h : t.V = s.V) (r : RegIx) : t.reg r = s.reg r := by
  simp only [State.reg, h]

@[simp] theorem State.setIndex_reg (s : State) (v : Word) (r : RegIx) : (s.setIndex v).reg r = s.reg r := rfl
@[simp] theorem State.setTimer_reg (s : State) (v : Byte) (r : RegIx) : (s.setTimer v).reg r = s.reg r := rfl
@[simp] theorem State.jump_reg (s : State) (p : Word) (r : RegIx) : (s.jump p).reg r = s.reg r := rfl
@[simp] theorem State.advance_reg (s : State) (r : RegIx) : s.advance.reg r = s.reg r := rfl
@[simp] theorem State.skipIf_reg (s : State) (c : Bool) (r : RegIx) : (s.skipIf c).reg r = s.reg r := rfl
@[simp] theorem State.ask_reg (s : State) (q : Request) (r : RegIx) : (s.ask q).reg r = s.reg r := rfl
@[simp] theorem State.writeByte_reg (s : State) (a : Nat) (v : Byte) (r : RegIx) : (s.writeByte a v).reg r = s.reg r := rfl
@[simp] theorem State.beginCycle_reg (s : State) (r : RegIx) : s.beginCycle.reg r = s.reg r := rfl
@[simp] theorem State.nextInput_reg (s : State) (r : RegIx) : s.nextInput.reg r = s.reg r := rfl
@[simp] theorem State.ticks_reg (s : State) (n : Nat) (r : RegIx) : (s.ticks n).reg r = s.reg r := rfl

/-! ### Memory -/

/-- Two states with the same memory and parameters read the same bytes. -/
theorem State.readByte_congr {s t : State} (hm : t.mem = s.mem) (hc : t.config = s.config) (a : Nat) :
    t.readByte a = s.readByte a := by
  simp only [State.readByte, hm, hc]

@[simp] theorem State.writeByte_readByte (s : State) (a b : Nat) (v : Byte) :
    (s.writeByte a v).readByte b = if b = a then v else s.readByte b := by
  simp [State.readByte]

@[simp] theorem State.setReg_readByte (s : State) (r : RegIx) (v : Byte) (a : Nat) : (s.setReg r v).readByte a = s.readByte a := rfl
@[simp] theorem State.loadRegs_readByte (s : State) (bs : List Byte) (a : Nat) : (s.loadRegs bs).readByte a = s.readByte a := rfl
@[simp] theorem State.setIndex_readByte (s : State) (v : Word) (a : Nat) : (s.setIndex v).readByte a = s.readByte a := rfl
@[simp] theorem State.setTimer_readByte (s : State) (v : Byte) (a : Nat) : (s.setTimer v).readByte a = s.readByte a := rfl
@[simp] theorem State.jump_readByte (s : State) (p : Word) (a : Nat) : (s.jump p).readByte a = s.readByte a := rfl
@[simp] theorem State.advance_readByte (s : State) (a : Nat) : s.advance.readByte a = s.readByte a := rfl
@[simp] theorem State.skipIf_readByte (s : State) (c : Bool) (a : Nat) : (s.skipIf c).readByte a = s.readByte a := rfl
@[simp] theorem State.ask_readByte (s : State) (q : Request) (a : Nat) : (s.ask q).readByte a = s.readByte a := rfl
@[simp] theorem State.beginCycle_readByte (s : State) (a : Nat) : s.beginCycle.readByte a = s.readByte a := rfl
@[simp] theorem State.nextInput_readByte (s : State) (a : Nat) : s.nextInput.readByte a = s.readByte a := rfl
@[simp] theorem State.ticks_readByte (s : State) (n a : Nat) : (s.ticks n).readByte a = s.readByte a := rfl

/-- Storing bytes touches nothing but memory. -/
theorem State.writeBytes_eq (s : State) (a : Nat) (bs : List Byte) :
    s.writeBytes a bs = { s with mem := (s.writeBytes a bs).mem } := by
  induction bs generalizing s a with
  | nil => rfl
  | cons b bs ih =>
    rw [State.writeBytes, ih]
    rfl

@[simp] theorem State.writeBytes_config (s : State) (a : Nat) (bs : List Byte) : (s.writeBytes a bs).config = s.config := by
  rw [State.writeBytes_eq]

/-- What every address holds after bytes were stored from `a` on. -/
theorem State.writeBytes_readByte (s : State) (a : Nat) (bs : List Byte) (b : Nat) :
    (s.writeBytes a bs).readByte b = if a ≤ b ∧ b < a + bs.length then bs.getD (b - a) 0 else s.readByte b := by
  induction bs generalizing s a with
  | nil => simp [State.writeBytes]
  | cons v bs ih =>
    rw [State.writeBytes, ih, State.writeByte_readByte, List.length_cons]
    by_cases hb : b = a
    · subst hb
      simp
    · by_cases hin : a + 1 ≤ b ∧ b < a + 1 + bs.length
      · have hsub : b - a = b - (a + 1) + 1 := by omega
        rw [if_pos hin, if_pos (by omega), hsub, List.getD_cons_succ]
      · rw [if_neg hin, if_neg hb, if_neg (by omega)]

/-- Storing bytes inside `0..4095` keeps memory canonical. -/
theorem State.writeBytes_wf (s : State) (a : Nat) (bs : List Byte) (h : Memory.wf (resetByte s.config) s.mem)
    (hin : a + bs.length ≤ 4096) : Memory.wf (resetByte s.config) (s.writeBytes a bs).mem := by
  induction bs generalizing s a with
  | nil => exact h
  | cons b bs ih =>
    rw [List.length_cons] at hin
    exact ih (s.writeByte a b) (a + 1) (Memory.wf_write h (show a < 4096 by omega) b) (by omega)

/-- A checked read answers the bytes, lowest address first, or OutOfBounds. -/
theorem State.memRead_cases (s : State) (addr n : Nat) :
    ((n = 0 ∨ addr + n ≤ 4096) ∧ s.memRead addr n = .ok ((List.range n).map fun j => s.readByte (addr + j))) ∨
    (0 < n ∧ 4096 < addr + n ∧ s.memRead addr n = .error .outOfBounds) := by
  have hm : memSize = 4096 := rfl
  rw [State.memRead, hm]
  split
  · next h => exact .inr ⟨h.1, h.2, rfl⟩
  · next h => exact .inl ⟨by omega, rfl⟩

/-- A checked write stores all of its bytes, or none with OutOfBounds. -/
theorem State.memWrite_cases (s : State) (addr : Nat) (bs : List Byte) :
    (addr + bs.length ≤ 4096 ∧ s.memWrite addr bs = .ok (s.writeBytes addr bs)) ∨
    (4096 < addr + bs.length ∧ s.memWrite addr bs = .error .outOfBounds) := by
  have hm : memSize = 4096 := rfl
  rw [State.memWrite, hm]
  split
  · next h => exact .inr ⟨h, rfl⟩
  · next h => exact .inl ⟨by omega, rfl⟩

/-- A fetch reads two bytes, or fails with OutOfBounds. -/
theorem State.fetch_cases (s : State) :
    (s.pc.toNat ≤ 4094 ∧ s.fetch = .ok (wordOfBytes (s.readByte s.pc.toNat) (s.readByte (s.pc.toNat + 1)))) ∨
    (4095 ≤ s.pc.toNat ∧ s.fetch = .error .outOfBounds) := by
  rw [State.fetch]
  split
  · next h => exact .inr ⟨by omega, rfl⟩
  · next h => exact .inl ⟨by omega, rfl⟩

/-- A fetch depends on `pc`, memory and the parameters alone. -/
theorem State.fetch_congr {s t : State} (hp : t.pc = s.pc) (hm : t.mem = s.mem) (hc : t.config = s.config) :
    t.fetch = s.fetch := by
  simp only [State.fetch, State.readByte, hp, hm, hc]

/-! ### The call stack -/

/-- A push writes the free slot and moves `sp`, or overflows. -/
theorem State.push_cases (s : State) (v : Word) :
    (s.sp < s.config.stackCapacity ∧ s.push v = .ok { s with stack := s.stack.set s.sp v, sp := s.sp + 1 }) ∨
    (s.config.stackCapacity ≤ s.sp ∧ s.push v = .error .stackOverflow) := by
  rw [State.push]
  split
  · next h => exact .inr ⟨h, rfl⟩
  · next h => exact .inl ⟨by omega, rfl⟩

/-- A pop answers the last live slot and moves `sp`, or underflows. -/
theorem State.pop_cases (s : State) :
    (s.sp ≠ 0 ∧ s.pop = .ok (s.slot (s.sp - 1), { s with sp := s.sp - 1 })) ∨
    (s.sp = 0 ∧ s.pop = .error .stackUnderflow) := by
  rw [State.pop]
  split
  · next h => exact .inr ⟨h, rfl⟩
  · next h => exact .inl ⟨h, rfl⟩

/-! ### The flag values -/

theorem flagOfBit_toNat (b : Bool) : (flagOfBit b).toNat = if b then 1 else 0 := by
  cases b <;> rfl

/-- A flag is 0 or 1 (spec/10_state.md R37). -/
theorem flagOfBit_cases (b : Bool) : flagOfBit b = 0 ∨ flagOfBit b = 1 := by
  cases b <;> simp [flagOfBit]

/-! ### The timer -/

/-- `dt` after `n` ticks, in numbers. -/
theorem timerAfter_toNat (n : Nat) (d : Byte) : (timerAfter n d).toNat = d.toNat - n := by
  unfold timerAfter
  split
  · next h => simp [h]
  · have := d.isLt
    rw [BitVec.toNat_ofNat, Nat.mod_eq_of_lt (by omega)]

end Sys2Proof.Machine
end

