-- ==== Sys2Proof/Laws/Exec.lean ====
section
/-! SUPPORT. What the instructions that can fail do, one lemma each: the state they answer, or their failure, and when. The other instructions answer
the state their definition shows, in every state. -/

namespace Sys2Proof.Machine

/-- CALL pushes and jumps, or overflows (spec/41_control_transfer.md R121). -/
theorem execCall_cases (nnn : Addr) (s : State) :
    (s.sp < s.config.stackCapacity ∧ exec (.call nnn) s =
      .next { s with stack := s.stack.set s.sp s.npc, sp := s.sp + 1, pc := addressOperand nnn }) ∨
    (s.config.stackCapacity ≤ s.sp ∧ exec (.call nnn) s = .fault .stackOverflow) := by
  rcases s.push_cases s.npc with ⟨h, hp⟩ | ⟨h, hp⟩
  · exact .inl ⟨h, by simp only [exec, execCall, hp]; rfl⟩
  · exact .inr ⟨h, by simp only [exec, execCall, hp, raise]⟩

/-- RET pops, or underflows (R122). -/
theorem execRet_cases (s : State) :
    (s.sp ≠ 0 ∧ exec .ret s = .next { s with pc := s.slot (s.sp - 1), sp := s.sp - 1 }) ∨
    (s.sp = 0 ∧ exec .ret s = .fault .stackUnderflow) := by
  rcases s.pop_cases with ⟨h, hp⟩ | ⟨h, hp⟩
  · exact .inl ⟨h, by simp only [exec, execRet, hp]; rfl⟩
  · exact .inr ⟨h, by simp only [exec, execRet, hp, raise]⟩

/-- A store at `I` stores all its bytes, or none (spec/20_memory.md R51). -/
theorem storeAtIndex_cases (s : State) (bs : List Byte) :
    (s.I.toNat + bs.length ≤ 4096 ∧ s.storeAtIndex bs = .next (s.writeBytes s.I.toNat bs).advance) ∨
    (4096 < s.I.toNat + bs.length ∧ s.storeAtIndex bs = .fault .outOfBounds) := by
  rcases s.memWrite_cases s.I.toNat bs with ⟨h, hw⟩ | ⟨h, hw⟩
  · exact .inl ⟨h, by simp only [State.storeAtIndex, State.effectiveAddress, Nat.add_zero, hw]⟩
  · exact .inr ⟨h, by simp only [State.storeAtIndex, State.effectiveAddress, Nat.add_zero, hw, raise]⟩

/-- BCD stores three digits, or nothing (spec/44_index_memory.md R163). -/
theorem execBcd_cases (x : RegIx) (s : State) :
    (s.I.toNat + 3 ≤ 4096 ∧
      exec (.bcd x) s = .next (s.writeBytes s.I.toNat (decimalDigits (s.reg x))).advance) ∨
    (4096 < s.I.toNat + 3 ∧ exec (.bcd x) s = .fault .outOfBounds) :=
  storeAtIndex_cases s (decimalDigits (s.reg x))

/-- STM stores `x + 1` registers, or nothing (R164). -/
theorem execStm_cases (x : RegIx) (s : State) :
    (s.I.toNat + (x.val + 1) ≤ 4096 ∧ exec (.stm x) s = .next (s.writeBytes s.I.toNat (s.regsUpTo x)).advance) ∨
    (4096 < s.I.toNat + (x.val + 1) ∧ exec (.stm x) s = .fault .outOfBounds) := by
  have h := storeAtIndex_cases s (s.regsUpTo x)
  rw [State.regsUpTo_length] at h
  exact h

/-- LDM loads `x + 1` registers, or none (R165). -/
theorem execLdm_cases (x : RegIx) (s : State) :
    (s.I.toNat + (x.val + 1) ≤ 4096 ∧ exec (.ldm x) s =
      .next (s.loadRegs ((List.range (x.val + 1)).map fun j => s.readByte (s.I.toNat + j))).advance) ∨
    (4096 < s.I.toNat + (x.val + 1) ∧ exec (.ldm x) s = .fault .outOfBounds) := by
  rcases s.memRead_cases s.I.toNat (x.val + 1) with ⟨h, hr⟩ | ⟨-, h, hr⟩
  · exact .inl ⟨by omega, by simp only [exec, execLdm, State.effectiveAddress, Nat.add_zero, blockCount, hr]⟩
  · exact .inr ⟨h, by simp only [exec, execLdm, State.effectiveAddress, Nat.add_zero, blockCount, hr, raise]⟩

/-- DRW asks with the sprite and writes the flag, or fails before either (spec/46_collaborators.md R181). -/
theorem execDrw_cases (x y : RegIx) (n : Nibble) (s : State) :
    ((n.toNat = 0 ∨ s.I.toNat + n.toNat ≤ 4096) ∧ exec (.drw x y n) s =
      .next ((s.ask (.drawSprite (s.reg x) (s.reg y) ((List.range n.toNat).map fun j => s.readByte (s.I.toNat + j)))).setReg
        flagReg (collisionFlag s.input.collided)).advance) ∨
    (0 < n.toNat ∧ 4096 < s.I.toNat + n.toNat ∧ exec (.drw x y n) s = .fault .outOfBounds) := by
  rcases s.memRead_cases s.I.toNat n.toNat with ⟨h, hr⟩ | ⟨h0, h, hr⟩
  · exact .inl ⟨h, by simp only [exec, execDrw, State.effectiveAddress, Nat.add_zero, countOperand, hr]⟩
  · exact .inr ⟨h0, h, by simp only [exec, execDrw, State.effectiveAddress, Nat.add_zero, countOperand, hr, raise]⟩

end Sys2Proof.Machine
end

