-- ==== Sys2Proof/Laws/PerInstr.lean ====
section
/-! SUPPORT. Statements about every instruction as syntax, one lemma per constructor. Family RowMatch: the word of an instruction selects the row
of the opcode map (spec/30_encoding.md R85) that carries its mnemonic, whatever its operands. -/

namespace Sys2Proof.Laws

/-- The instruction's word selects the row of its own mnemonic. -/
def RowMatch.Statement (i : Instr) : Prop :=
  ∃ r ∈ opcodeRows, r.mnemonic = i.mnemonic ∧ r.selects (encode i) = true

/-- Masking a word of four nibbles masks each nibble. -/
theorem RowMatch.nibbles_and (a b c d p q r t : Nibble) :
    wordOfNibbles a b c d &&& wordOfNibbles p q r t = wordOfNibbles (a &&& p) (b &&& q) (c &&& r) (d &&& t) :=
  (BitVec.and_append (w := 4) (v := 12)).trans
    (congrArg _ ((BitVec.and_append (w := 4) (v := 8)).trans (congrArg _ (BitVec.and_append (w := 4) (v := 4)))))

/-- A word of four nibbles selects a row whose mask keeps some nibbles whole and drops the others. -/
theorem RowMatch.of_nibbles {i : Instr} {a b c d p q r t : Nibble} (row : OpcodeRow) (hrow : row ∈ opcodeRows)
    (hname : row.mnemonic = i.mnemonic) (hword : encode i = wordOfNibbles a b c d)
    (hmask : row.mask = wordOfNibbles p q r t)
    (hpattern : row.pattern = wordOfNibbles (a &&& p) (b &&& q) (c &&& r) (d &&& t)) : RowMatch.Statement i :=
  ⟨row, hrow, hname, by rw [OpcodeRow.selects, hword, hmask, RowMatch.nibbles_and, hpattern]; simp⟩

theorem RowMatch.cls : RowMatch.Statement .cls :=
  RowMatch.of_nibbles (a := 0x0) (b := 0x0) (c := 0xE) (d := 0x0) (p := 0xF) (q := 0xF) (r := 0xF) (t := 0xF)
    ⟨"CLS", 0xFFFF, 0x00E0⟩ (by decide) rfl rfl (by decide) (by simp; decide)

theorem RowMatch.ret : RowMatch.Statement .ret :=
  RowMatch.of_nibbles (a := 0x0) (b := 0x0) (c := 0xE) (d := 0xE) (p := 0xF) (q := 0xF) (r := 0xF) (t := 0xF)
    ⟨"RET", 0xFFFF, 0x00EE⟩ (by decide) rfl rfl (by decide) (by simp; decide)

theorem RowMatch.jp (nnn : Addr) : RowMatch.Statement (.jp nnn) :=
  RowMatch.of_nibbles (a := 0x1) (b := nnn.extractLsb' 8 4) (c := nnn.extractLsb' 4 4) (d := nnn.extractLsb' 0 4) (p := 0xF) (q := 0x0) (r := 0x0) (t := 0x0)
    ⟨"JP", 0xF000, 0x1000⟩ (by decide) rfl (encodeA_eq _ _) (by decide) (by simp; decide)

theorem RowMatch.call (nnn : Addr) : RowMatch.Statement (.call nnn) :=
  RowMatch.of_nibbles (a := 0x2) (b := nnn.extractLsb' 8 4) (c := nnn.extractLsb' 4 4) (d := nnn.extractLsb' 0 4) (p := 0xF) (q := 0x0) (r := 0x0) (t := 0x0)
    ⟨"CALL", 0xF000, 0x2000⟩ (by decide) rfl (encodeA_eq _ _) (by decide) (by simp; decide)

theorem RowMatch.seb (x : RegIx) (kk : Byte) : RowMatch.Statement (.seb x kk) :=
  RowMatch.of_nibbles (a := 0x3) (b := selector x) (c := kk.extractLsb' 4 4) (d := kk.extractLsb' 0 4) (p := 0xF) (q := 0x0) (r := 0x0) (t := 0x0)
    ⟨"SEB", 0xF000, 0x3000⟩ (by decide) rfl (encodeXK_eq _ _ _) (by decide) (by simp; decide)

theorem RowMatch.sneb (x : RegIx) (kk : Byte) : RowMatch.Statement (.sneb x kk) :=
  RowMatch.of_nibbles (a := 0x4) (b := selector x) (c := kk.extractLsb' 4 4) (d := kk.extractLsb' 0 4) (p := 0xF) (q := 0x0) (r := 0x0) (t := 0x0)
    ⟨"SNEB", 0xF000, 0x4000⟩ (by decide) rfl (encodeXK_eq _ _ _) (by decide) (by simp; decide)

theorem RowMatch.ser (x y : RegIx) : RowMatch.Statement (.ser x y) :=
  RowMatch.of_nibbles (a := 0x5) (b := selector x) (c := selector y) (d := 0x0) (p := 0xF) (q := 0x0) (r := 0x0) (t := 0xF)
    ⟨"SER", 0xF00F, 0x5000⟩ (by decide) rfl rfl (by decide) (by simp; decide)

theorem RowMatch.ldb (x : RegIx) (kk : Byte) : RowMatch.Statement (.ldb x kk) :=
  RowMatch.of_nibbles (a := 0x6) (b := selector x) (c := kk.extractLsb' 4 4) (d := kk.extractLsb' 0 4) (p := 0xF) (q := 0x0) (r := 0x0) (t := 0x0)
    ⟨"LDB", 0xF000, 0x6000⟩ (by decide) rfl (encodeXK_eq _ _ _) (by decide) (by simp; decide)

theorem RowMatch.addb (x : RegIx) (kk : Byte) : RowMatch.Statement (.addb x kk) :=
  RowMatch.of_nibbles (a := 0x7) (b := selector x) (c := kk.extractLsb' 4 4) (d := kk.extractLsb' 0 4) (p := 0xF) (q := 0x0) (r := 0x0) (t := 0x0)
    ⟨"ADDB", 0xF000, 0x7000⟩ (by decide) rfl (encodeXK_eq _ _ _) (by decide) (by simp; decide)

theorem RowMatch.mov (x y : RegIx) : RowMatch.Statement (.mov x y) :=
  RowMatch.of_nibbles (a := 0x8) (b := selector x) (c := selector y) (d := 0x0) (p := 0xF) (q := 0x0) (r := 0x0) (t := 0xF)
    ⟨"MOV", 0xF00F, 0x8000⟩ (by decide) rfl rfl (by decide) (by simp; decide)

theorem RowMatch.or (x y : RegIx) : RowMatch.Statement (.or x y) :=
  RowMatch.of_nibbles (a := 0x8) (b := selector x) (c := selector y) (d := 0x1) (p := 0xF) (q := 0x0) (r := 0x0) (t := 0xF)
    ⟨"OR", 0xF00F, 0x8001⟩ (by decide) rfl rfl (by decide) (by simp; decide)

theorem RowMatch.and (x y : RegIx) : RowMatch.Statement (.and x y) :=
  RowMatch.of_nibbles (a := 0x8) (b := selector x) (c := selector y) (d := 0x2) (p := 0xF) (q := 0x0) (r := 0x0) (t := 0xF)
    ⟨"AND", 0xF00F, 0x8002⟩ (by decide) rfl rfl (by decide) (by simp; decide)

theorem RowMatch.xor (x y : RegIx) : RowMatch.Statement (.xor x y) :=
  RowMatch.of_nibbles (a := 0x8) (b := selector x) (c := selector y) (d := 0x3) (p := 0xF) (q := 0x0) (r := 0x0) (t := 0xF)
    ⟨"XOR", 0xF00F, 0x8003⟩ (by decide) rfl rfl (by decide) (by simp; decide)

theorem RowMatch.add (x y : RegIx) : RowMatch.Statement (.add x y) :=
  RowMatch.of_nibbles (a := 0x8) (b := selector x) (c := selector y) (d := 0x4) (p := 0xF) (q := 0x0) (r := 0x0) (t := 0xF)
    ⟨"ADD", 0xF00F, 0x8004⟩ (by decide) rfl rfl (by decide) (by simp; decide)

theorem RowMatch.sub (x y : RegIx) : RowMatch.Statement (.sub x y) :=
  RowMatch.of_nibbles (a := 0x8) (b := selector x) (c := selector y) (d := 0x5) (p := 0xF) (q := 0x0) (r := 0x0) (t := 0xF)
    ⟨"SUB", 0xF00F, 0x8005⟩ (by decide) rfl rfl (by decide) (by simp; decide)

theorem RowMatch.shr (x y : RegIx) : RowMatch.Statement (.shr x y) :=
  RowMatch.of_nibbles (a := 0x8) (b := selector x) (c := selector y) (d := 0x6) (p := 0xF) (q := 0x0) (r := 0x0) (t := 0xF)
    ⟨"SHR", 0xF00F, 0x8006⟩ (by decide) rfl rfl (by decide) (by simp; decide)

theorem RowMatch.subn (x y : RegIx) : RowMatch.Statement (.subn x y) :=
  RowMatch.of_nibbles (a := 0x8) (b := selector x) (c := selector y) (d := 0x7) (p := 0xF) (q := 0x0) (r := 0x0) (t := 0xF)
    ⟨"SUBN", 0xF00F, 0x8007⟩ (by decide) rfl rfl (by decide) (by simp; decide)

theorem RowMatch.shl (x y : RegIx) : RowMatch.Statement (.shl x y) :=
  RowMatch.of_nibbles (a := 0x8) (b := selector x) (c := selector y) (d := 0xE) (p := 0xF) (q := 0x0) (r := 0x0) (t := 0xF)
    ⟨"SHL", 0xF00F, 0x800E⟩ (by decide) rfl rfl (by decide) (by simp; decide)

theorem RowMatch.sner (x y : RegIx) : RowMatch.Statement (.sner x y) :=
  RowMatch.of_nibbles (a := 0x9) (b := selector x) (c := selector y) (d := 0x0) (p := 0xF) (q := 0x0) (r := 0x0) (t := 0xF)
    ⟨"SNER", 0xF00F, 0x9000⟩ (by decide) rfl rfl (by decide) (by simp; decide)

theorem RowMatch.ldi (nnn : Addr) : RowMatch.Statement (.ldi nnn) :=
  RowMatch.of_nibbles (a := 0xA) (b := nnn.extractLsb' 8 4) (c := nnn.extractLsb' 4 4) (d := nnn.extractLsb' 0 4) (p := 0xF) (q := 0x0) (r := 0x0) (t := 0x0)
    ⟨"LDI", 0xF000, 0xA000⟩ (by decide) rfl (encodeA_eq _ _) (by decide) (by simp; decide)

theorem RowMatch.jpv0 (nnn : Addr) : RowMatch.Statement (.jpv0 nnn) :=
  RowMatch.of_nibbles (a := 0xB) (b := nnn.extractLsb' 8 4) (c := nnn.extractLsb' 4 4) (d := nnn.extractLsb' 0 4) (p := 0xF) (q := 0x0) (r := 0x0) (t := 0x0)
    ⟨"JPV0", 0xF000, 0xB000⟩ (by decide) rfl (encodeA_eq _ _) (by decide) (by simp; decide)

theorem RowMatch.rnd (x : RegIx) (kk : Byte) : RowMatch.Statement (.rnd x kk) :=
  RowMatch.of_nibbles (a := 0xC) (b := selector x) (c := kk.extractLsb' 4 4) (d := kk.extractLsb' 0 4) (p := 0xF) (q := 0x0) (r := 0x0) (t := 0x0)
    ⟨"RND", 0xF000, 0xC000⟩ (by decide) rfl (encodeXK_eq _ _ _) (by decide) (by simp; decide)

theorem RowMatch.drw (x y : RegIx) (n : Nibble) : RowMatch.Statement (.drw x y n) :=
  RowMatch.of_nibbles (a := 0xD) (b := selector x) (c := selector y) (d := n) (p := 0xF) (q := 0x0) (r := 0x0) (t := 0x0)
    ⟨"DRW", 0xF000, 0xD000⟩ (by decide) rfl rfl (by decide) (by simp; decide)

theorem RowMatch.skp (x : RegIx) : RowMatch.Statement (.skp x) :=
  RowMatch.of_nibbles (a := 0xE) (b := selector x) (c := 0x9) (d := 0xE) (p := 0xF) (q := 0x0) (r := 0xF) (t := 0xF)
    ⟨"SKP", 0xF0FF, 0xE09E⟩ (by decide) rfl rfl (by decide) (by simp; decide)

theorem RowMatch.sknp (x : RegIx) : RowMatch.Statement (.sknp x) :=
  RowMatch.of_nibbles (a := 0xE) (b := selector x) (c := 0xA) (d := 0x1) (p := 0xF) (q := 0x0) (r := 0xF) (t := 0xF)
    ⟨"SKNP", 0xF0FF, 0xE0A1⟩ (by decide) rfl rfl (by decide) (by simp; decide)

theorem RowMatch.lddt (x : RegIx) : RowMatch.Statement (.lddt x) :=
  RowMatch.of_nibbles (a := 0xF) (b := selector x) (c := 0x0) (d := 0x7) (p := 0xF) (q := 0x0) (r := 0xF) (t := 0xF)
    ⟨"LDDT", 0xF0FF, 0xF007⟩ (by decide) rfl rfl (by decide) (by simp; decide)

theorem RowMatch.wkey (x : RegIx) : RowMatch.Statement (.wkey x) :=
  RowMatch.of_nibbles (a := 0xF) (b := selector x) (c := 0x0) (d := 0xA) (p := 0xF) (q := 0x0) (r := 0xF) (t := 0xF)
    ⟨"WKEY", 0xF0FF, 0xF00A⟩ (by decide) rfl rfl (by decide) (by simp; decide)

theorem RowMatch.stdt (x : RegIx) : RowMatch.Statement (.stdt x) :=
  RowMatch.of_nibbles (a := 0xF) (b := selector x) (c := 0x1) (d := 0x5) (p := 0xF) (q := 0x0) (r := 0xF) (t := 0xF)
    ⟨"STDT", 0xF0FF, 0xF015⟩ (by decide) rfl rfl (by decide) (by simp; decide)

theorem RowMatch.addi (x : RegIx) : RowMatch.Statement (.addi x) :=
  RowMatch.of_nibbles (a := 0xF) (b := selector x) (c := 0x1) (d := 0xE) (p := 0xF) (q := 0x0) (r := 0xF) (t := 0xF)
    ⟨"ADDI", 0xF0FF, 0xF01E⟩ (by decide) rfl rfl (by decide) (by simp; decide)

theorem RowMatch.font (x : RegIx) : RowMatch.Statement (.font x) :=
  RowMatch.of_nibbles (a := 0xF) (b := selector x) (c := 0x2) (d := 0x9) (p := 0xF) (q := 0x0) (r := 0xF) (t := 0xF)
    ⟨"FONT", 0xF0FF, 0xF029⟩ (by decide) rfl rfl (by decide) (by simp; decide)

theorem RowMatch.bcd (x : RegIx) : RowMatch.Statement (.bcd x) :=
  RowMatch.of_nibbles (a := 0xF) (b := selector x) (c := 0x3) (d := 0x3) (p := 0xF) (q := 0x0) (r := 0xF) (t := 0xF)
    ⟨"BCD", 0xF0FF, 0xF033⟩ (by decide) rfl rfl (by decide) (by simp; decide)

theorem RowMatch.stm (x : RegIx) : RowMatch.Statement (.stm x) :=
  RowMatch.of_nibbles (a := 0xF) (b := selector x) (c := 0x5) (d := 0x5) (p := 0xF) (q := 0x0) (r := 0xF) (t := 0xF)
    ⟨"STM", 0xF0FF, 0xF055⟩ (by decide) rfl rfl (by decide) (by simp; decide)

theorem RowMatch.ldm (x : RegIx) : RowMatch.Statement (.ldm x) :=
  RowMatch.of_nibbles (a := 0xF) (b := selector x) (c := 0x6) (d := 0x5) (p := 0xF) (q := 0x0) (r := 0xF) (t := 0xF)
    ⟨"LDM", 0xF0FF, 0xF065⟩ (by decide) rfl rfl (by decide) (by simp; decide)

end Sys2Proof.Laws
end

