-- ==== Sys2Proof/Laws/Step.lean ====
section
/-! SUPPORT. What a cycle and a step can do, and what no instruction touches. -/

namespace Sys2Proof.Machine

/-- No instruction touches the parameters, the inputs, their counter, the loader's mark or the UNKNOWN mark. -/
theorem exec_keeps_surroundings {i : Instr} {s t : State} (h : exec i s = .next t) :
    t.config = s.config ∧ t.inputs = s.inputs ∧ t.cycleNo = s.cycleNo ∧ t.started = s.started ∧
      t.unknown = s.unknown := by
  cases i with
  | call nnn =>
    rcases execCall_cases nnn s with ⟨-, he⟩ | ⟨-, he⟩ <;> rw [he] at h <;> cases h
    exact ⟨rfl, rfl, rfl, rfl, rfl⟩
  | ret =>
    rcases execRet_cases s with ⟨-, he⟩ | ⟨-, he⟩ <;> rw [he] at h <;> cases h
    exact ⟨rfl, rfl, rfl, rfl, rfl⟩
  | drw x y n =>
    rcases execDrw_cases x y n s with ⟨-, he⟩ | ⟨-, -, he⟩ <;> rw [he] at h <;> cases h
    exact ⟨rfl, rfl, rfl, rfl, rfl⟩
  | ldm x =>
    rcases execLdm_cases x s with ⟨-, he⟩ | ⟨-, he⟩ <;> rw [he] at h <;> cases h
    exact ⟨rfl, rfl, rfl, rfl, rfl⟩
  | bcd x =>
    rcases execBcd_cases x s with ⟨-, he⟩ | ⟨-, he⟩ <;> rw [he] at h <;> cases h
    rw [State.writeBytes_eq]
    exact ⟨rfl, rfl, rfl, rfl, rfl⟩
  | stm x =>
    rcases execStm_cases x s with ⟨-, he⟩ | ⟨-, he⟩ <;> rw [he] at h <;> cases h
    rw [State.writeBytes_eq]
    exact ⟨rfl, rfl, rfl, rfl, rfl⟩
  | wkey x =>
    unfold exec execWkey at h
    injection h with h
    subst h
    split <;> exact ⟨rfl, rfl, rfl, rfl, rfl⟩
  | _ =>
    cases h
    exact ⟨rfl, rfl, rfl, rfl, rfl⟩

/-- The input of the cycle is the same before and after the instruction. -/
theorem exec_keeps_input {i : Instr} {s t : State} (h : exec i s = .next t) : t.input = s.input := by
  obtain ⟨-, h1, h2, -, -⟩ := exec_keeps_surroundings h
  simp only [State.input, h1, h2]

/-- A cycle fails in the fetch, runs an instruction, or runs the UNKNOWN no-op (spec/40_cycle.md R101). -/
theorem State.runCycle_cases (s : State) :
    (s.fetch = .error .outOfBounds ∧ s.runCycle = .fault .outOfBounds) ∨
    (∃ w i, s.fetch = .ok w ∧ decodeWord w = some i ∧ s.runCycle = exec i s.beginCycle) ∨
    (∃ w, s.fetch = .ok w ∧ decodeWord w = none ∧
      s.runCycle = .next ({ s.beginCycle with unknown := some w } : State).advance) := by
  rcases s.fetch_cases with ⟨-, hf⟩ | ⟨-, hf⟩
  · right
    rcases hd : decodeWord (wordOfBytes (s.readByte s.pc.toNat) (s.readByte (s.pc.toNat + 1))) with - | i
    · exact .inr ⟨_, hf, hd, by simp only [State.runCycle, hf, State.runWord, hd, execUnknown]⟩
    · exact .inl ⟨_, i, hf, hd, by simp only [State.runCycle, hf, State.runWord, hd]⟩
  · exact .inl ⟨hf, by simp only [State.runCycle, hf, raise]⟩

/-- Every cycle the host invokes closes the loader's port, one that fails too (spec/20_memory.md R66; log 15). -/
theorem State.cycle_started (s : State) : s.cycle.1.started = true := by
  rcases hr : s.runCycle with t | f | r
  · have ht : t.started = true := by
      rcases s.runCycle_cases with ⟨-, h⟩ | ⟨w, i, -, -, h⟩ | ⟨w, -, -, h⟩
      · rw [hr] at h
        cases h
      · rw [hr] at h
        exact (exec_keeps_surroundings h.symm).2.2.2.1
      · rw [hr] at h
        cases h
        rfl
    simp only [State.cycle, hr, State.nextInput_started, ht]
  all_goals simp only [State.cycle, hr, State.beginCycle_started]

/-- A step that goes on is a cycle that went on, then the ticks and the next input. -/
theorem step_next {s t : State} (h : step s = .next t) : ∃ u, s.runCycle = .next u ∧ t = u.endCycle := by
  unfold step afterCycle at h
  split at h <;> cases h
  exact ⟨_, ‹_›, rfl⟩

/-- A step fails exactly when its cycle does, in the same way. -/
theorem step_fault_iff {s : State} {f : Fault} : step s = .fault f ↔ s.runCycle = .fault f := by
  unfold step afterCycle
  cases s.runCycle <;> simp

/-- The closed form of the ticks between two cycles is that many single ticks (spec/45_timer.md R173). -/
theorem State.ticks_eq_iterate (n : Nat) (s : State) : s.ticks n = State.tick^[n] s := by
  induction n generalizing s with
  | zero =>
    have h : timerAfter 0 s.dt = s.dt := BitVec.eq_of_toNat_eq (by rw [timerAfter_toNat, Nat.sub_zero])
    rw [State.ticks, h]
    rfl
  | succ n ih =>
    rw [Function.iterate_succ_apply, ← ih]
    have hd := s.dt.isLt
    unfold State.tick
    split
    · next hpos =>
      have h : timerAfter (n + 1) s.dt = timerAfter n (s.dt - 1) := by
        apply BitVec.eq_of_toNat_eq
        rw [timerAfter_toNat, timerAfter_toNat, BitVec.toNat_sub, show (1 : Byte).toNat = 1 from rfl]
        omega
      rw [State.ticks, h]
      rfl
    · next hzero =>
      have h : timerAfter (n + 1) s.dt = timerAfter n s.dt := by
        apply BitVec.eq_of_toNat_eq
        rw [timerAfter_toNat, timerAfter_toNat]
        omega
      rw [State.ticks, h]
      rfl

end Sys2Proof.Machine
end

