-- ==== Sys2Proof/Tests/Slice0.lean ====
section
/-! SUPPORT. The model's own tests. Expected values come from spec/95_test_vectors.md (the vector's id stands in each comment) or are written out
from the encodings of spec/30_encoding.md R82 and R85. The file ends with the witnesses: for each obligation that has hypotheses, a concrete
state and operands that meet all of them. -/

namespace Sys2Proof.Tests

open Sys2Proof.Machine

/-! ### Helpers -/

/-- The run-ready state with a word at `0x200`. -/
def boot (w : Nat) : State := State.reset.withFetchWord 16 w

/-- Some registers set. -/
def State.withRegs (s : State) (l : List (RegIx × Byte)) : State := l.foldl (fun t p => t.setReg p.1 p.2) s

/-- An input that answers no to everything, with no tick after the cycle. -/
def silent : CycleInput := ⟨0, false, false, none, 0⟩

/-- The boot state with a word, registers, the index register and the inputs of the coming cycles. -/
def ready (w : Nat) (regs : List (RegIx × Byte)) (i : Word) (ins : List CycleInput) : State :=
  { State.withRegs (boot w) regs with I := i, inputs := ins }

/-- The result is a next state with the property. -/
def after (o : Result) (p : State → Bool) : Bool :=
  match o with
  | .next t => p t
  | _ => false

/-- The result is that fault. -/
def faults (o : Result) (f : Fault) : Bool :=
  match o with
  | .fault g => g == f
  | _ => false

theorem next_of_after {o : Result} {p : State → Bool} (h : after o p = true) : ∃ t, o = .next t ∧ p t = true := by
  cases o with
  | next t => exact ⟨t, rfl, h⟩
  | fault f => cases h
  | refused r => cases h

theorem fault_of_faults {o : Result} {f : Fault} (h : faults o f = true) : o = .fault f := by
  cases o with
  | next t => cases h
  | fault g =>
    have : g = f := by simpa [faults] using h
    rw [this]
  | refused r => cases h

/-! ### Syntax: the checks refuse ill-formed terms -/

theorem smoke_descriptor_x : ¬ ({ describe 0x1234 with x := 3 } : Descriptor).WellFormed := by decide
theorem smoke_descriptor_y : ¬ ({ describe 0x1234 with y := 4 } : Descriptor).WellFormed := by decide
theorem smoke_descriptor_n : ¬ ({ describe 0x1234 with n := 3 } : Descriptor).WellFormed := by decide
theorem smoke_descriptor_kk : ¬ ({ describe 0x1234 with kk := 0x43 } : Descriptor).WellFormed := by decide
theorem smoke_descriptor_nnn : ¬ ({ describe 0x1234 with nnn := 0x134 } : Descriptor).WellFormed := by decide
theorem smoke_descriptor_good : (describe 0x1234).WellFormed := by decide

theorem smoke_config_entry : ¬ ({ defaultConfig with entry := 4095 } : Config).WellFormed := by decide
theorem smoke_config_no_stack : ¬ ({ defaultConfig with stackCapacity := 0 } : Config).WellFormed := by decide
theorem smoke_config_deep_stack : ¬ ({ defaultConfig with stackCapacity := 65536 } : Config).WellFormed := by decide
theorem smoke_config_font_overlaps : ¬ ({ defaultConfig with fontBase := 433 } : Config).WellFormed := by decide
theorem smoke_config_good : ({ defaultConfig with fontBase := 432 } : Config).WellFormed := by decide

theorem smoke_image_too_long : ¬ ({ defaultConfig with entry := 4094 } : Config).ImageFits [1, 2, 3] := by decide
theorem smoke_image_fits : ({ defaultConfig with entry := 4094 } : Config).ImageFits [1, 2] := by decide

/-! ### Decode: every instruction's word, written out from R85 -/

theorem test_decode_formats_Z_A :
    decodeWord 0x00E0 = some .cls ∧ decodeWord 0x00EE = some .ret ∧
    decodeWord 0b0001101010111100 = some (.jp 0xABC) ∧ decodeWord 0b0010101010111100 = some (.call 0xABC) ∧
    decodeWord 0xA2F0 = some (.ldi 0x2F0) ∧ decodeWord 0xBFFF = some (.jpv0 0xFFF) := by decide

theorem test_decode_format_XK :
    decodeWord 0b0011001100101010 = some (.seb 3 0x2A) ∧ decodeWord 0x432A = some (.sneb 3 0x2A) ∧
    decodeWord 0x6FAB = some (.ldb 15 0xAB) ∧ decodeWord 0x7220 = some (.addb 2 0x20) ∧
    decodeWord 0xC30F = some (.rnd 3 0x0F) := by decide

theorem test_decode_format_XY :
    decodeWord 0x5120 = some (.ser 1 2) ∧ decodeWord 0x9120 = some (.sner 1 2) ∧
    decodeWord 0b1000000100100000 = some (.mov 1 2) ∧ decodeWord 0x8121 = some (.or 1 2) ∧
    decodeWord 0x8122 = some (.and 1 2) ∧ decodeWord 0x8123 = some (.xor 1 2) ∧
    decodeWord 0x8124 = some (.add 1 2) ∧ decodeWord 0x8125 = some (.sub 1 2) ∧
    decodeWord 0x81A6 = some (.shr 1 10) ∧ decodeWord 0x8127 = some (.subn 1 2) ∧
    decodeWord 0x81AE = some (.shl 1 10) := by decide

theorem test_decode_formats_XYN_X :
    decodeWord 0b1101000100100101 = some (.drw 1 2 5) ∧ decodeWord 0b1110010010011110 = some (.skp 4) ∧
    decodeWord 0xE4A1 = some (.sknp 4) ∧ decodeWord 0b1111010100000111 = some (.lddt 5) ∧
    decodeWord 0xF30A = some (.wkey 3) ∧ decodeWord 0xF515 = some (.stdt 5) ∧
    decodeWord 0xF21E = some (.addi 2) ∧ decodeWord 0xF329 = some (.font 3) ∧
    decodeWord 0xF133 = some (.bcd 1) ∧ decodeWord 0xF255 = some (.stm 2) ∧
    decodeWord 0xF265 = some (.ldm 2) := by decide

/-- Section 2.8 of the vectors: words that select nothing. -/
theorem test_decode_unknown :
    [0x0000, 0x00E1, 0x00EF, 0x00FE, 0x0123, 0x0FFF, 0x5121, 0x512F, 0x8128, 0x812D, 0x812F].map decodeWord =
      List.replicate 11 none ∧
    [0x9125, 0xE000, 0xE19F, 0xE1A0, 0xF000, 0xF118, 0xF175, 0xF185, 0xF1FF, 0xFFFF].map decodeWord =
      List.replicate 10 none := by decide

theorem test_decode_rejects_by_name :
    decode [0x60] = .error .truncated ∧ decode [0xF1, 0x18] = .error (.unknown 0xF118) ∧
    decode [0x60, 0x05, 0x70] = .ok (.ldb 0 5, [0x70]) := by decide

theorem test_encode_bytes : encodeBytes (.drw 1 2 5) = [0xD1, 0x25] ∧ encodeBytes .ret = [0x00, 0xEE] := by decide

theorem test_decode_table_word :
    decodeTableWord 16 0x8014 = some (.add 0 1) ∧ decodeTableWord 16 0xF118 = none := by decide

/-! ### Control transfer (section 2.1) -/

/-- T-CT2, and T-CT13: the jump succeeds and the next fetch fails. -/
theorem test_jp_last_address :
    after (step (boot 0x1FFF)) (fun t => t.pc == 0x0FFF && faults (step t) .outOfBounds) = true := by decide

/-- T-CT4. -/
theorem test_call_pushes :
    after (step (boot 0x2300)) (fun t => t.slot 0 == 0x0202 && t.sp == 1 && t.pc == 0x0300) = true := by decide

/-- T-CT6. -/
theorem test_call_overflows : faults (step { boot 0x2300 with sp := 16 }) .stackOverflow = true := by decide

/-- T-CT9: the entry below `sp`, not the one at it. -/
theorem test_ret_pops_last :
    after (step { boot 0x00EE with sp := 2, stack := [0x0202, 0x0ABC, 0x0DDD] })
      (fun t => t.pc == 0x0ABC && t.sp == 1 && t.slot 1 == 0x0ABC) = true := by decide

/-- T-CT7. -/
theorem test_ret_underflows : faults (step (boot 0x00EE)) .stackUnderflow = true := by decide

/-- T-CT11: not masked to 12 bits. -/
theorem test_jpv0_leaves_memory : after (step (ready 0xBFFF [(0, 0xFF)] 0 [silent])) (fun t => t.pc == 0x10FE) = true := by
  decide

/-- T-CT16: no alignment. -/
theorem test_fetch_odd :
    after (step (({ State.reset with pc := 0x201 } : State).writeBytes 0x200 [0x12, 0x61, 0x07, 0x00]))
      (fun t => t.reg 1 == 7 && t.pc == 0x203) = true := by decide

/-- T-CT15: `pc + 1` is not wrapped. -/
theorem test_fetch_top : faults (step { State.reset with pc := 0xFFFF }) .outOfBounds = true := by decide

/-! ### Skips (section 2.2) -/

/-- T-SK1, T-SK2. -/
theorem test_seb :
    after (step (ready 0x332A [(3, 0x2A)] 0 [silent])) (fun t => t.pc == 0x204) = true ∧
    after (step (ready 0x332A [(3, 0x2B)] 0 [silent])) (fun t => t.pc == 0x202) = true := by decide

/-- T-SK3, T-SK4. -/
theorem test_sneb :
    after (step (ready 0x432A [(3, 0x2A)] 0 [silent])) (fun t => t.pc == 0x202) = true ∧
    after (step (ready 0x432A [(3, 0x2B)] 0 [silent])) (fun t => t.pc == 0x204) = true := by decide

/-- T-SK5, T-SK6. -/
theorem test_ser :
    after (step (ready 0x5120 [(1, 7), (2, 7)] 0 [silent])) (fun t => t.pc == 0x204) = true ∧
    after (step (ready 0x5120 [(1, 7), (2, 8)] 0 [silent])) (fun t => t.pc == 0x202) = true := by decide

/-- T-SK8, T-SK9. -/
theorem test_sner :
    after (step (ready 0x9120 [(1, 7), (2, 7)] 0 [silent])) (fun t => t.pc == 0x202) = true ∧
    after (step (ready 0x9120 [(1, 7), (2, 8)] 0 [silent])) (fun t => t.pc == 0x204) = true := by decide

/-- T-SK11, and T-SK15: the request carries the whole byte. -/
theorem test_skp :
    after (step (ready 0xE49E [(4, 7)] 0 [{ silent with keyDown := true }])) (fun t => t.pc == 0x204) = true ∧
    after (step (ready 0xE49E [(4, 0x47)] 0 [silent]))
      (fun t => t.pc == 0x202 && t.request == some (.isKeyDown 71)) = true := by decide

/-- T-SK13, T-SK14. -/
theorem test_sknp :
    after (step (ready 0xE4A1 [(4, 7)] 0 [{ silent with keyDown := true }])) (fun t => t.pc == 0x202) = true ∧
    after (step (ready 0xE4A1 [(4, 7)] 0 [silent])) (fun t => t.pc == 0x204) = true := by decide

/-! ### Loads and the ALU (section 2.3) -/

/-- T-AL1. -/
theorem test_ldb : after (step (boot 0x6FAB)) (fun t => t.reg 15 == 0xAB && t.pc == 0x202) = true := by decide

/-- T-AL3: wraps, the flag keeps its value. -/
theorem test_addb :
    after (step (ready 0x7220 [(2, 0xF0), (15, 1)] 0 [silent])) (fun t => t.reg 2 == 0x10 && t.reg 15 == 1) = true := by
  decide

/-- T-AL5. -/
theorem test_mov : after (step (ready 0x8120 [(2, 0x7E)] 0 [silent])) (fun t => t.reg 1 == 0x7E) = true := by decide

/-- T-AL6: the flag is not cleared. -/
theorem test_or :
    after (step (ready 0x8121 [(1, 0x0F), (2, 0xF0), (15, 7)] 0 [silent]))
      (fun t => t.reg 1 == 0xFF && t.reg 15 == 7) = true := by decide

/-- T-AL7. -/
theorem test_and :
    after (step (ready 0x8122 [(1, 0x3C), (2, 0xF0), (15, 7)] 0 [silent]))
      (fun t => t.reg 1 == 0x30 && t.reg 15 == 7) = true := by decide

/-- T-AL8. -/
theorem test_xor :
    after (step (ready 0x8123 [(1, 0x3C), (2, 0xF0), (15, 7)] 0 [silent]))
      (fun t => t.reg 1 == 0xCC && t.reg 15 == 7) = true := by decide

/-- T-AL10 (the source's S2), T-AL12. -/
theorem test_add :
    after (step (ready 0x8014 [(0, 0xFF), (1, 1)] 0 [silent])) (fun t => t.reg 0 == 0 && t.reg 15 == 1) = true ∧
    after (step (ready 0x8014 [(0, 0x7F), (1, 0x80)] 0 [silent])) (fun t => t.reg 0 == 0xFF && t.reg 15 == 0) = true := by
  decide

/-- T-AL15, T-AL17: the flag register as destination and as operand. -/
theorem test_add_flag_register :
    after (step (ready 0x8F14 [(15, 0xFF), (1, 1)] 0 [silent])) (fun t => t.reg 15 == 1) = true ∧
    after (step (ready 0x81F4 [(1, 0xFE), (15, 3)] 0 [silent])) (fun t => t.reg 1 == 1 && t.reg 15 == 1) = true := by
  decide

/-- T-AL18, T-AL20: borrow; equal operands do not borrow. -/
theorem test_sub :
    after (step (ready 0x8125 [(1, 0x10), (2, 0x20)] 0 [silent])) (fun t => t.reg 1 == 0xF0 && t.reg 15 == 0) = true ∧
    after (step (ready 0x8125 [(1, 0x33), (2, 0x33)] 0 [silent])) (fun t => t.reg 1 == 0 && t.reg 15 == 1) = true := by
  decide

/-- T-AL24. -/
theorem test_sub_flag_register :
    after (step (ready 0x8F15 [(15, 3), (1, 5)] 0 [silent])) (fun t => t.reg 15 == 0) = true := by decide

/-- T-AL26, T-AL28. -/
theorem test_subn :
    after (step (ready 0x8127 [(1, 0x20), (2, 0x10)] 0 [silent])) (fun t => t.reg 1 == 0xF0 && t.reg 15 == 0) = true ∧
    after (step (ready 0x8F17 [(15, 9), (1, 3)] 0 [silent])) (fun t => t.reg 15 == 0) = true := by decide

/-- T-AL33: `y` is ignored; T-AL31: bit 7 becomes 0. -/
theorem test_shr :
    after (step (ready 0x81A6 [(1, 5), (10, 0xFF)] 0 [silent]))
      (fun t => t.reg 1 == 2 && t.reg 15 == 1 && t.reg 10 == 0xFF) = true ∧
    after (step (ready 0x8106 [(1, 0xFF)] 0 [silent])) (fun t => t.reg 1 == 0x7F && t.reg 15 == 1) = true := by decide

/-- T-AL36: the flag is 1, not 0x80; T-AL41: the flag is what remains. -/
theorem test_shl :
    after (step (ready 0x810E [(1, 0x81)] 0 [silent])) (fun t => t.reg 1 == 2 && t.reg 15 == 1) = true ∧
    after (step (ready 0x8F0E [(15, 0x7F)] 0 [silent])) (fun t => t.reg 15 == 0) = true := by decide

/-! ### Index register and memory (section 2.4) -/

/-- T-IM2. -/
theorem test_ldi : after (step (boot 0xAFFF)) (fun t => t.I == 0x0FFF) = true := by decide

/-- T-IM4, T-IM5: no 12-bit mask, no flag, wraps at 65536. -/
theorem test_addi :
    after (step (ready 0xF21E [(2, 1), (15, 7)] 0x0FFF [silent])) (fun t => t.I == 0x1000 && t.reg 15 == 7) = true ∧
    after (step (ready 0xF21E [(2, 1), (15, 7)] 0xFFFF [silent])) (fun t => t.I == 0 && t.reg 15 == 7) = true := by
  decide

/-- T-IM9: not masked to a nibble. -/
theorem test_font : after (step (ready 0xF329 [(3, 0xFF)] 0 [silent])) (fun t => t.I == 1275) = true := by decide

/-- T-IM10. -/
theorem test_bcd :
    after (step (ready 0xF133 [(1, 156)] 0x300 [silent])) (fun t => t.readByte 0x300 == 1 && t.readByte 0x301 == 5 &&
      t.readByte 0x302 == 6 && t.readByte 0x303 == 0) = true := by decide

/-- T-IM15. -/
theorem test_bcd_out_of_bounds : faults (step (ready 0xF133 [(1, 0xFF)] 0x0FFE [silent])) .outOfBounds = true := by decide

/-- T-IM18 with three of its registers. -/
theorem test_stm :
    after (step (ready 0xF255 [(0, 0x10), (1, 0x11), (2, 0x12), (3, 0x13)] 0x300 [silent]))
      (fun t => t.readByte 0x2FF == 0 && t.readByte 0x300 == 0x10 && t.readByte 0x301 == 0x11 &&
        t.readByte 0x302 == 0x12 && t.readByte 0x303 == 0 && t.I == 0x300) = true := by decide

/-- T-IM25. -/
theorem test_stm_out_of_bounds : faults (step (ready 0xF055 [] 0x1000 [silent])) .outOfBounds = true := by decide

/-- T-IM28: glyph 0 of the default font; the register above the block keeps its value. -/
theorem test_ldm :
    after (step (ready 0xF465 [(5, 0x55)] 0 [silent])) (fun t => t.reg 0 == 0xF0 && t.reg 1 == 0x90 && t.reg 3 == 0x90 &&
      t.reg 4 == 0xF0 && t.reg 5 == 0x55 && t.I == 0) = true := by decide

/-- T-IM30: nothing is loaded. -/
theorem test_ldm_out_of_bounds : faults (step (ready 0xF165 [] 4095 [silent])) .outOfBounds = true := by decide

/-! ### The timer (sections 2.5, 2.6) -/

/-- T-TM1; then the two ticks of the input. -/
theorem test_lddt :
    after (step { ready 0xF507 [] 0 [{ silent with ticks := 2 }] with dt := 0x3C })
      (fun t => t.reg 5 == 0x3C && t.dt == 0x3A) = true := by decide

/-- T-TM2. -/
theorem test_stdt : after (step (ready 0xF515 [(5, 0x3C)] 0 [silent])) (fun t => t.dt == 0x3C) = true := by decide

/-- T-TK1, T-TK2, T-TK4. -/
theorem test_tick :
    State.reset.tick = State.reset ∧ ({ State.reset with dt := 1 } : State).tick = State.reset ∧
    ({ State.reset with dt := 255 } : State).tick.dt = 254 := by decide +kernel

/-- T-TM4: no sound timer, an UNKNOWN word. -/
theorem test_unknown :
    after (step { ready 0xF518 [(5, 3)] 0 [silent] with dt := 9 })
      (fun t => t.pc == 0x202 && t.dt == 9 && t.unknown == some 0xF518 && t.request == none) = true := by decide

/-! ### The collaborators (section 2.7) -/

/-- T-CO1. -/
theorem test_cls : after (step (boot 0x00E0)) (fun t => t.pc == 0x202 && t.request == some .clear) = true := by decide

/-- T-CO7: the old flag register is the x coordinate. -/
theorem test_drw :
    after (step (ready 0xDFE5 [(15, 3), (14, 4)] 75 [silent])) (fun t => t.reg 15 == 0 &&
      t.request == some (.drawSprite 3 4 [0xF0, 0x80, 0xF0, 0x80, 0x80])) = true := by decide

/-- T-CO4: no byte, no bound; T-CO6: the failure. -/
theorem test_drw_bounds :
    after (step (ready 0xD120 [(15, 9)] 0x2000 [silent]))
      (fun t => t.reg 15 == 0 && t.request == some (.drawSprite 0 0 [])) = true ∧
    faults (step (ready 0xD002 [] 4095 [silent])) .outOfBounds = true := by decide

/-- T-CO9, T-CO11: asked for also under the mask 0. -/
theorem test_rnd :
    after (step (ready 0xC30F [] 0 [{ silent with randomByte := 0xA7 }])) (fun t => t.reg 3 == 7) = true ∧
    after (step (ready 0xC300 [(3, 0x55)] 0 [{ silent with randomByte := 0xA7 }]))
      (fun t => t.reg 3 == 0 && t.request == some .nextByte) = true := by decide

/-- T-CO13, T-CO15: nothing held; key 0 is a key. -/
theorem test_wkey :
    after (step (ready 0xF30A [(3, 0x55)] 0 [silent]))
      (fun t => t.reg 3 == 0x55 && t.pc == 0x200 && t.request == some .anyKeyDown) = true ∧
    after (step (ready 0xF30A [(3, 0x55)] 0 [{ silent with anyKey := some 0 }]))
      (fun t => t.reg 3 == 0 && t.pc == 0x202) = true := by decide

/-! ### The host (section 2.9) -/

/-- T-RS1: some bytes of the font, and the byte after it. -/
theorem test_reset_memory :
    [0, 4, 5, 79, 80].map State.reset.readByte = [0xF0, 0xF0, 0x20, 0x80, 0x00] := by decide

/-- T-RS1, T-RS2: a reset from power-on gives the run-ready state. -/
theorem test_reset_from_power_on : (State.powerOn defaultConfig).hostReset = State.reset := by decide +kernel

/-- T-RS3. -/
theorem test_load :
    (State.reset.load [0x60, 0x05, 0x70, 0x03]).map (fun t => [0x1FF, 0x200, 0x201, 0x202, 0x203, 0x204].map t.readByte) =
      some [0, 0x60, 0x05, 0x70, 0x03, 0] := by decide

/-- R66, D1: after a first cycle that fails (RET on the empty stack, T-CT7) nothing is loaded, and after a reset a load is possible again. -/
theorem test_failed_cycle_closes_loader :
    (boot 0x00EE).cycle.2 = .failed .stackUnderflow ∧ (boot 0x00EE).cycle.1.load [0x60, 0x05] = none ∧
    ((boot 0x00EE).cycle.1.hostReset.load [0x60, 0x05]).isSome = true := by decide

/-- T-RS4: power-on without reset runs an UNKNOWN no-op at address 0. -/
theorem test_cycle_at_power_on :
    (State.powerOn defaultConfig).cycle.2 = .okUnknown 0 ∧ (State.powerOn defaultConfig).cycle.1.pc = 2 := by decide +kernel

/-- R108: the codes of the outcomes. -/
theorem test_outcome_codes :
    [CycleOutcome.ok, .okUnknown 0, .failed .outOfBounds, .failed .stackOverflow, .failed .stackUnderflow].map
      CycleOutcome.code = [some 0, some 0, some 1, some 2, some 3] := by decide

/-! ### Witnesses: the hypotheses of the obligations can be met -/

theorem witness_EncodeInvertsDecode : decodeWord 0xD125 = some (.drw 1 2 5) := by decide

theorem witness_DecodeFollowsTheOpcodeMap : (⟨"LDM", 0xF0FF, 0xF065⟩ : OpcodeRow) ∈ opcodeRows := by decide

/-- Both clauses where they meet. -/
theorem witness_FetchReadsTheWordAtPc :
    ({ State.reset with pc := 4094 } : State).pc.toNat ≤ 4094 ∧ 4095 ≤ ({ State.reset with pc := 4095 } : State).pc.toNat := by
  decide

theorem witness_StepRunsTheDecodedInstruction :
    (boot 0x6FAB).pc.toNat ≤ 4094 ∧
    decode [(boot 0x6FAB).readByte (boot 0x6FAB).pc.toNat, (boot 0x6FAB).readByte ((boot 0x6FAB).pc.toNat + 1)] =
      .ok (.ldb 15 0xAB, []) := by decide

theorem witness_UnknownWordIsANoOp : (boot 0xF118).fetch = .ok 0xF118 ∧ decodeWord 0xF118 = none := by decide

/-- The largest word, with `pc` at the last fetchable address and just above it. -/
theorem witness_PlacedWordIsFetched :
    65535 < 65536 ∧ (({ State.reset with pc := 4094 } : State).withFetchWord 16 65535).fetch = .ok 0xFFFF ∧
    (({ State.reset with pc := 4095 } : State).withFetchWord 16 65535).fetch = .ok 0xFFFF := by decide

theorem witness_FailedCycleChangesNothing : (boot 0x00EE).runCycle = .fault .stackUnderflow :=
  fault_of_faults (by decide)

theorem witness_FailureRecurs : step (boot 0x00EE) = .fault .stackUnderflow := fault_of_faults (by decide)

theorem witness_StepIsCycleThenTicks : ∃ t, step { boot 0xF515 with inputs := [{ silent with ticks := 3 }] } = .next t :=
  (next_of_after (p := fun _ => true) (by decide)).imp fun _ h => h.1

/-- STM of two registers at 0x300; the fetch from there. -/
theorem witness_StoredCodeIsFetched :
    (∃ t, exec (.stm 1) (ready 0xF155 [(0, 0x6A), (1, 0x2A)] 0x300 [silent]) = .next t) ∧
    (0 : RegIx).val + 1 ≤ (1 : RegIx).val ∧
    (0x300 : Word).toNat = (ready 0xF155 [(0, 0x6A), (1, 0x2A)] 0x300 [silent]).I.toNat + (0 : RegIx).val :=
  ⟨(next_of_after (p := fun _ => true) (by decide)).imp fun _ h => h.1, by decide, by decide⟩

/-- CALL with one slot left and with none. -/
theorem witness_CallPushesAndJumps :
    State.reset.stack.length = State.reset.config.stackCapacity ∧
    ({ State.reset with sp := 15 } : State).sp < State.reset.config.stackCapacity ∧
    State.reset.config.stackCapacity ≤ ({ State.reset with sp := 16 } : State).sp := by decide

theorem witness_ReturnPops : ({ State.reset with sp := 1 } : State).sp ≠ 0 ∧ State.reset.sp = 0 := by decide

theorem witness_ReturnResumesAfterTheCall :
    State.reset.stack.length = State.reset.config.stackCapacity ∧
    ∃ t, exec (.call 0x300) { State.reset with sp := 15 } = .next t :=
  ⟨by decide, (next_of_after (p := fun _ => true) (by decide)).imp fun _ h => h.1⟩

/-- Sixteen calls from an empty stack. -/
theorem witness_CallsNestToCapacity :
    State.reset.sp + (List.replicate 16 (0x200 : Addr)).length = State.reset.config.stackCapacity := by decide

theorem witness_FlagWritersLeaveZeroOrOne :
    (Instr.drw 0 1 5) ∈ [Instr.add 0 1, .sub 0 1, .shr 0 1, .subn 0 1, .shl 0 1, .drw 0 1 5] ∧
    ∃ t, exec (.drw 0 1 5) State.reset = .next t :=
  ⟨by decide, _, rfl⟩

theorem witness_OnlyTheseChangeTheFlagRegister :
    ∃ t, exec (.ldb 15 0xAB) State.reset = .next t ∧ t.reg 15 ≠ State.reset.reg 15 :=
  ⟨_, rfl, by decide⟩

/-- The last base that fits three bytes, and the next one. -/
theorem witness_BcdStoresThreeDigits :
    ({ State.reset with I := 4093 } : State).effectiveAddress 2 ≤ 4095 ∧
    4095 < ({ State.reset with I := 4094 } : State).effectiveAddress 2 := by decide

/-- One register at the last address and past it; sixteen registers at the last base that fits. -/
theorem witness_StoreRegistersStoresTheBlock :
    ({ State.reset with I := 4095 } : State).effectiveAddress (0 : RegIx).val ≤ 4095 ∧
    4095 < ({ State.reset with I := 4096 } : State).effectiveAddress (0 : RegIx).val ∧
    ({ State.reset with I := 4080 } : State).effectiveAddress (15 : RegIx).val ≤ 4095 ∧
    4095 < ({ State.reset with I := 4081 } : State).effectiveAddress (15 : RegIx).val := by decide

/-- The same boundaries for the load; a register at the end of the block and one above it. -/
theorem witness_LoadRegistersLoadsTheBlock :
    ({ State.reset with I := 4095 } : State).effectiveAddress (0 : RegIx).val ≤ 4095 ∧
    4095 < ({ State.reset with I := 4096 } : State).effectiveAddress (0 : RegIx).val ∧
    ({ State.reset with I := 4080 } : State).effectiveAddress (15 : RegIx).val ≤ 4095 ∧
    4095 < ({ State.reset with I := 4081 } : State).effectiveAddress (15 : RegIx).val ∧
    (14 : RegIx) ≤ 14 ∧ (14 : RegIx) < 15 := by decide

theorem witness_LoadAfterStoreRestores :
    ∃ t, exec (.stm 3) (ready 0xF355 [(0, 0xDE), (1, 0xAD), (2, 0xBE), (3, 0xEF)] 0x300 [silent]) = .next t :=
  (next_of_after (p := fun _ => true) (by decide)).imp fun _ h => h.1

/-- One memory written in two orders. -/
theorem witness_CanonicalMemoriesAreEqual :
    let bg := resetByte defaultConfig
    let m := Memory.write bg (Memory.write bg [] 5 1) 0x300 2
    let m' := Memory.write bg (Memory.write bg [] 0x300 2) 5 1
    m ≠ [] ∧ Memory.wf bg m ∧ Memory.wf bg m' ∧ ∀ a, Memory.read bg m a = Memory.read bg m' a := by
  refine ⟨by decide, by decide, by decide, fun a => ?_⟩
  have h : Memory.write (resetByte defaultConfig) (Memory.write (resetByte defaultConfig) [] 5 1) 0x300 2 =
      Memory.write (resetByte defaultConfig) (Memory.write (resetByte defaultConfig) [] 0x300 2) 5 1 := by decide
  rw [h]

/-- A machine that reads the timer while it falls. -/
theorem witness_TimerGrowsOnlyBySetting :
    let s : State := { ready 0xF507 [] 0 [{ silent with ticks := 2 }] with dt := 0x3C }
    (∃ t, step s = .next t) ∧ s.fetch = .ok 0xF507 ∧ ∀ x, decodeWord 0xF507 ≠ some (.stdt x) :=
  ⟨(next_of_after (p := fun _ => true) (by decide)).imp fun _ h => h.1, by decide, by decide⟩

/-- Two bytes at the last base that fits them and one past it; no byte at an address far outside. -/
theorem witness_DrawSendsTheSprite :
    ((2 : Nibble).toNat = 0 ∨ ({ State.reset with I := 4094 } : State).I.toNat + (2 : Nibble).toNat - 1 ≤ 4095) ∧
    ((0 : Nibble).toNat = 0 ∨ ({ State.reset with I := 0x2000 } : State).I.toNat + (0 : Nibble).toNat - 1 ≤ 4095) ∧
    ((2 : Nibble).toNat > 0 ∧ ({ State.reset with I := 4095 } : State).I.toNat + (2 : Nibble).toNat - 1 > 4095) := by
  decide

theorem witness_AwaitKeyPolls :
    (ready 0xF30A [] 0 [silent]).input.anyKey = none ∧
    (ready 0xF30A [] 0 [{ silent with anyKey := some 0 }]).input.anyKey = some 0 := by decide

/-- T-CO16: nothing, nothing, key 15. -/
theorem witness_AwaitKeyWaitsUnchanged :
    let last : CycleInput := { silent with anyKey := some 15 }
    let s := ready 0xF30A [(3, 0x55)] 0 [silent, silent, last]
    s.fetch = .ok 0xF30A ∧ decodeWord 0xF30A = some (.wkey 3) ∧ s.inputs = [silent, silent] ++ last :: [] ∧
    (∀ i ∈ [silent, silent], i.anyKey = none) ∧ last.anyKey = some 15 := by decide

/-- Keys 7 and 9 held; the keypad answers 7, and yes to a question about 9. -/
theorem witness_AwaitKeyStoresTheLowestKey :
    KeypadContract (fun k => k == 7 || k == 9) 9
      (ready 0xF30A [] 0 [{ silent with keyDown := true, anyKey := some 7 }]).input ∧
    ∃ k : RegIx, (k == 7 || k == 9) = true := by
  refine ⟨⟨by decide, 7, by decide, by decide, by decide⟩, by decide⟩

/-- No key held: the other form of the contract. -/
theorem witness_KeypadContract_none : KeypadContract (fun _ => false) 0 (ready 0xF30A [] 0 [silent]).input :=
  ⟨by decide, fun _ => rfl⟩

/-- A state in the middle of a run: two calls deep, bytes stored, a register set. -/
def midRun : State :=
  { (ready 0xBFFF [(0, 0xFF), (3, 9)] 0x300 [silent]).writeBytes 0x300 [1, 2, 3] with
    sp := 2, stack := [0x204, 0x1000] ++ List.replicate 14 0, dt := 7, started := true }

theorem witness_StepKeepsTheInvariant : midRun.Inv ∧ ∃ t, step midRun = .next t :=
  ⟨by decide +kernel, (next_of_after (p := fun _ => true) (by decide +kernel)).imp fun _ h => h.1⟩

theorem witness_HostOperationsKeepTheInvariant : midRun.Inv := by decide +kernel

/-- The bound on the return addresses, from a check of the list (deciding it over all words would enumerate them). -/
theorem slots_bounded_of_all {l : List Word} (h : (l.all fun a => decide (a.toNat ≤ 4096)) = true) :
    ∀ a ∈ l, a.toNat ≤ 4096 :=
  fun a ha => of_decide_eq_true (List.all_eq_true.mp h a ha)

/-- At the last fetchable address, with two calls open. -/
theorem witness_StepKeepsPcBounded :
    ({ midRun with pc := 4094 } : State).PcBounded ∧ ∃ t, step { midRun with pc := 4094 } = .next t :=
  ⟨⟨by decide, slots_bounded_of_all (by decide)⟩,
    (next_of_after (p := fun _ => true) (by decide +kernel)).imp fun _ h => h.1⟩

theorem witness_OnlyStoresChangeMemory :
    let s := ready 0xF133 [(1, 156)] 0x300 [silent]
    (∃ t, step s = .next t ∧ t.readByte 0x302 ≠ s.readByte 0x302) ∧ s.fetch = .ok 0xF133 := by
  refine ⟨?_, by decide⟩
  obtain ⟨t, h, hp⟩ := next_of_after (o := step (ready 0xF133 [(1, 156)] 0x300 [silent]))
    (p := fun t => t.readByte 0x302 != (ready 0xF133 [(1, 156)] 0x300 [silent]).readByte 0x302) (by decide)
  exact ⟨t, h, by simpa using hp⟩

/-- One word for each clause: LDI, RET, CALL. -/
theorem witness_OnlyTheseChangeIndexAndStack :
    after (step (boot 0xA2F0)) (fun t => t.I != (boot 0xA2F0).I) = true ∧ (boot 0xA2F0).fetch = .ok 0xA2F0 ∧
    after (step { boot 0x00EE with sp := 1 }) (fun t => t.sp != 1) = true ∧
    after (step (boot 0x2300)) (fun t => t.stack != (boot 0x2300).stack) = true ∧ (boot 0x2300).fetch = .ok 0x2300 := by
  decide

theorem witness_RequestsFollowTheTable :
    (boot 0xD125).fetch = .ok 0xD125 ∧
    after (step (boot 0xD125)) (fun t => t.request == some (.drawSprite 0 0 [0xF0, 0x90, 0x90, 0x90, 0xF0])) = true := by
  decide

/-- Two states that differ in slots that are not live. -/
theorem witness_DeadStackSlotsAreInvisible :
    SameVisible { State.reset with sp := 1 } { State.reset with sp := 1, stack := 0 :: List.replicate 15 0xABC } ∧
    ({ State.reset with sp := 1 } : State) ≠ { State.reset with sp := 1, stack := 0 :: List.replicate 15 0xABC } :=
  ⟨⟨rfl, rfl, by decide⟩, by decide +kernel⟩

/-- T-CT3: `0x1200` at `0x200`. -/
theorem witness_JumpToSelfIsAFixedPoint : (boot 0x1200).AtEnd := ⟨0x1200, 0x200, by decide, by decide, by decide⟩

/-- Two different states with the same parameters. -/
theorem witness_ResetLeavesTheRunReadyState : midRun.config = State.reset.config ∧ midRun ≠ State.reset := by
  decide +kernel

/-- An image that just fits, one byte more, and a machine that has run. -/
theorem witness_LoadPlacesTheImage :
    let s := State.initial { defaultConfig with entry := 4094 }
    s.started = false ∧ s.config.entry.toNat + [(1 : Byte), 2].length ≤ 4096 ∧
    4096 < s.config.entry.toNat + [(1 : Byte), 2, 3].length ∧ midRun.started = true := by decide +kernel

theorem witness_PowerOnIsAllZero : defaultConfig.WellFormed := by decide

end Sys2Proof.Tests
end

section
/-! PROOF. What one cycle can do to the stack, memory, `I` and `pc`, said once (`CycleEffect`), and the statements of spec/10_state.md that
follow: the invariant (R42), the bound on `pc` (R28), what can change `I`, `sp` and the slots (R29 to R31). -/

namespace Sys2Proof.Machine

/-! ### What a cycle can do -/

/-- The instructions whose business is to write `I` (spec/10_state.md R29); `none` stands for an UNKNOWN word. -/
def WritesIndex (o : Option Instr) : Prop :=
  (∃ nnn, o = some (.ldi nnn)) ∨ ∃ x, o = some (.addi x) ∨ o = some (.font x)

/-- Where `pc` can go without a call or a return: it stays (await-key), moves past this word or past the next one, or is the target of a
jump, at most `4095 + 255` (spec/10_state.md R28). -/
def ReachesPc (s t : State) : Prop :=
  t.pc = s.pc ∨ t.pc = s.npc ∨ t.pc = s.npc + 2 ∨ t.pc.toNat ≤ 4350

/-- What a word that completes can do to the stack, memory, `I`, `pc` and the parameters: it calls, returns, stores, or leaves stack and
memory alone. -/
inductive CycleEffect (s : State) : Option Instr → State → Prop
  | call (nnn : Addr) (room : s.sp < s.config.stackCapacity) :
      CycleEffect s (some (.call nnn))
        { s with stack := s.stack.set s.sp s.npc, sp := s.sp + 1, pc := addressOperand nnn }
  | ret (live : s.sp ≠ 0) : CycleEffect s (some .ret) { s with pc := s.slot (s.sp - 1), sp := s.sp - 1 }
  | store {o : Option Instr} (bytes : List Byte) (fits : s.I.toNat + bytes.length ≤ 4096) :
      CycleEffect s o (s.writeBytes s.I.toNat bytes).advance
  | plain {o : Option Instr} {t : State} (stack : t.stack = s.stack) (sp : t.sp = s.sp) (mem : t.mem = s.mem)
      (config : t.config = s.config) (index : t.I = s.I ∨ WritesIndex o) (pc : ReachesPc s t) : CycleEffect s o t

theorem addressOperand_toNat (nnn : Addr) : (addressOperand nnn).toNat = nnn.toNat := by
  have := nnn.isLt
  rw [addressOperand, BitVec.toNat_setWidth, Nat.mod_eq_of_lt (by omega)]

theorem addressOperand_le (nnn : Addr) : (addressOperand nnn).toNat ≤ 4095 := by
  have := nnn.isLt
  rw [addressOperand_toNat]
  omega

/-- The sum of JPV0 is at most `4095 + 255` (spec/41_control_transfer.md R123). -/
theorem jumpOffset_le (nnn : Addr) (v : Byte) : (addressOperand nnn + v.setWidth 16).toNat ≤ 4350 := by
  have := addressOperand_le nnn
  have := v.isLt
  rw [BitVec.toNat_add, BitVec.toNat_setWidth]
  omega

theorem ReachesPc.of_skipIf {s t : State} (condition : Bool)
    (h : t.pc = if condition then s.npc + 2 else s.npc) : ReachesPc s t := by
  cases condition
  · exact .inr (.inl h)
  · exact .inr (.inr (.inl h))

/-- Every instruction that completes has one of the effects. -/
theorem exec_effect {i : Instr} {s t : State} (h : exec i s = .next t) : CycleEffect s (some i) t := by
  cases i with
  | call nnn =>
    rcases execCall_cases nnn s with ⟨room, he⟩ | ⟨-, he⟩ <;> rw [he] at h <;> cases h
    exact .call nnn room
  | ret =>
    rcases execRet_cases s with ⟨live, he⟩ | ⟨-, he⟩ <;> rw [he] at h <;> cases h
    exact .ret live
  | bcd x =>
    rcases execBcd_cases x s with ⟨fits, he⟩ | ⟨-, he⟩ <;> rw [he] at h <;> cases h
    exact .store _ fits
  | stm x =>
    rcases execStm_cases x s with ⟨fits, he⟩ | ⟨-, he⟩ <;> rw [he] at h <;> cases h
    exact .store _ (by rwa [State.regsUpTo_length])
  | drw x y n =>
    rcases execDrw_cases x y n s with ⟨-, he⟩ | ⟨-, -, he⟩ <;> rw [he] at h <;> cases h
    exact .plain rfl rfl rfl rfl (.inl rfl) (.inr (.inl rfl))
  | ldm x =>
    rcases execLdm_cases x s with ⟨-, he⟩ | ⟨-, he⟩ <;> rw [he] at h <;> cases h
    exact .plain rfl rfl rfl rfl (.inl rfl) (.inr (.inl rfl))
  | wkey x =>
    unfold exec execWkey at h
    injection h with h
    subst h
    split
    · exact .plain rfl rfl rfl rfl (.inl rfl) (.inl rfl)
    · exact .plain rfl rfl rfl rfl (.inl rfl) (.inr (.inl rfl))
  | jp nnn =>
    cases h
    exact .plain rfl rfl rfl rfl (.inl rfl) (.inr (.inr (.inr ((addressOperand_le nnn).trans (by decide)))))
  | jpv0 nnn =>
    cases h
    exact .plain rfl rfl rfl rfl (.inl rfl) (.inr (.inr (.inr (jumpOffset_le nnn _))))
  | seb | sneb | ser | sner | skp | sknp =>
    cases h
    exact .plain rfl rfl rfl rfl (.inl rfl) (.of_skipIf _ rfl)
  | ldi nnn =>
    cases h
    exact .plain rfl rfl rfl rfl (.inr (.inl ⟨nnn, rfl⟩)) (.inr (.inl rfl))
  | addi x =>
    cases h
    exact .plain rfl rfl rfl rfl (.inr (.inr ⟨x, .inl rfl⟩)) (.inr (.inl rfl))
  | font x =>
    cases h
    exact .plain rfl rfl rfl rfl (.inr (.inr ⟨x, .inr rfl⟩)) (.inr (.inl rfl))
  | _ =>
    cases h
    exact .plain rfl rfl rfl rfl (.inl rfl) (.inr (.inl rfl))

/-- A fetch succeeds at an address up to 4094 only (spec/40_cycle.md R102). -/
theorem pc_le_of_fetch {s : State} {w : Word} (h : s.fetch = .ok w) : s.pc.toNat ≤ 4094 := by
  rcases s.fetch_cases with ⟨hle, -⟩ | ⟨-, he⟩
  · exact hle
  · rw [he] at h
    cases h

/-- A cycle that completes fetched a word at an address up to 4094 and had one of the effects; an UNKNOWN word moves `pc` alone. -/
theorem runCycle_effect {s t : State} (h : s.runCycle = .next t) :
    s.pc.toNat ≤ 4094 ∧ ∃ w, s.fetch = .ok w ∧ CycleEffect s.beginCycle (decodeWord w) t := by
  rcases s.runCycle_cases with ⟨-, hr⟩ | ⟨w, i, hf, hd, hr⟩ | ⟨w, hf, hd, hr⟩ <;> rw [hr] at h
  · cases h
  · exact ⟨pc_le_of_fetch hf, w, hf, hd ▸ exec_effect h⟩
  · cases h
    exact ⟨pc_le_of_fetch hf, w, hf, .plain rfl rfl rfl rfl (.inl rfl) (.inr (.inl rfl))⟩

/-! ### The invariant (spec/10_state.md R42) -/

/-- The invariant speaks of the parameters, the stack and memory alone. -/
theorem State.Inv.congr {s t : State} (hs : s.Inv) (hconfig : t.config = s.config) (hstack : t.stack = s.stack)
    (hsp : t.sp = s.sp) (hmem : t.mem = s.mem) : t.Inv := by
  rwa [State.Inv, hconfig, hstack, hsp, hmem]

/-- Bytes stored inside `0..4095` keep the invariant. -/
theorem State.Inv.writeBytes {s : State} (hs : s.Inv) {a : Nat} {bytes : List Byte} (fits : a + bytes.length ≤ 4096) :
    (s.writeBytes a bytes).Inv := by
  obtain ⟨hconfig, hslots, hsp, hmem⟩ := hs
  have hwf := s.writeBytes_wf a bytes hmem fits
  rw [State.writeBytes_eq]
  exact ⟨hconfig, hslots, hsp, hwf⟩

theorem CycleEffect.inv {s t : State} {o : Option Instr} (h : CycleEffect s o t) (hs : s.Inv) : t.Inv := by
  cases h with
  | call nnn room =>
    obtain ⟨hconfig, hslots, -, hmem⟩ := hs
    exact ⟨hconfig, by rw [List.length_set, hslots], room, hmem⟩
  | ret live =>
    obtain ⟨hconfig, hslots, hsp, hmem⟩ := hs
    exact ⟨hconfig, hslots, (Nat.sub_le _ _).trans hsp, hmem⟩
  | store bytes fits => exact (hs.writeBytes fits).congr rfl rfl rfl rfl
  | plain hstack hsp hmem hconfig _ _ => exact hs.congr hconfig hstack hsp hmem

theorem runCycle_keeps_inv {s t : State} (hs : s.Inv) (h : s.runCycle = .next t) : t.Inv := by
  obtain ⟨-, w, -, he⟩ := runCycle_effect h
  exact he.inv (hs.congr rfl rfl rfl rfl)

/-- Settles O47: a step is a cycle, which keeps the invariant whatever its effect, then ticks, which it does not see. -/
theorem stepKeepsTheInvariant : Obligations.StepKeepsTheInvariant := by
  intro s t hs h
  obtain ⟨u, hr, rfl⟩ := step_next h
  exact (runCycle_keeps_inv hs hr).congr rfl rfl rfl rfl

/-- A machine with legal parameters is in the invariant right after reset. -/
theorem State.initial_inv {c : Config} (hc : c.WellFormed) : (State.initial c).Inv :=
  ⟨hc, List.length_replicate, Nat.zero_le _, Memory.wf_nil⟩

theorem cycle_keeps_inv {s : State} (hs : s.Inv) : s.cycle.1.Inv := by
  rcases hr : s.runCycle with t | f | r <;> simp only [State.cycle, hr]
  · exact (runCycle_keeps_inv hs hr).congr rfl rfl rfl rfl
  all_goals exact hs.congr rfl rfl rfl rfl

theorem tick_keeps_inv {s : State} (hs : s.Inv) : s.tick.Inv := by
  unfold State.tick
  split
  · exact hs.congr rfl rfl rfl rfl
  · exact hs

theorem load_keeps_inv {s t : State} {image : List Byte} (hs : s.Inv) (h : s.load image = some t) : t.Inv := by
  unfold State.load at h
  split at h
  · next hload =>
    obtain ⟨-, fits⟩ := hload
    cases h
    exact hs.writeBytes fits
  · cases h

theorem host_keeps_inv {s : State} (hs : s.Inv) (op : HostOp) : (s.host op).1.Inv := by
  cases op with
  | reset =>
    obtain ⟨hconfig, -, -, -⟩ := hs
    exact (State.initial_inv hconfig).congr rfl rfl rfl rfl
  | load image =>
    rcases hl : s.load image with - | t <;> simp only [State.host, hl]
    · exact hs
    · exact load_keeps_inv hs hl
  | cycle => exact cycle_keeps_inv hs
  | tick => exact tick_keeps_inv hs

/-- Settles O48, by induction on the operations: each one keeps the invariant. -/
theorem hostOperationsKeepTheInvariant : Obligations.HostOperationsKeepTheInvariant := by
  intro ops
  induction ops with
  | nil => exact fun _ hs => hs
  | cons op ops ih => exact fun s hs => ih _ (host_keeps_inv hs op)

/-! ### The bound on `pc` (spec/10_state.md R28) -/

/-- Where a fetch succeeds, the 16-bit sum `npc` does not wrap. -/
theorem State.npc_toNat {s : State} (hpc : s.pc.toNat ≤ 4094) : s.npc.toNat = s.pc.toNat + 2 := by
  rw [State.npc, BitVec.toNat_add, show (2 : Word).toNat = 2 from rfl]
  omega

theorem ReachesPc.le {s t : State} (h : ReachesPc s t) (hpc : s.pc.toNat ≤ 4094) : t.pc.toNat ≤ 4350 := by
  have hnpc := State.npc_toNat hpc
  rcases h with h | h | h | h
  · rw [h]
    omega
  · rw [h]
    omega
  · rw [h, BitVec.toNat_add, show (2 : Word).toNat = 2 from rfl]
    omega
  · exact h

/-- A slot, listed or not, holds at most what bounds the listed ones. -/
theorem State.slot_le {s : State} {b : Nat} (h : ∀ a ∈ s.stack, a.toNat ≤ b) (j : Nat) : (s.slot j).toNat ≤ b := by
  rw [State.slot]
  by_cases hj : j < s.stack.length
  · rw [List.getD_eq_getElem _ _ hj]
    exact h _ (List.getElem_mem hj)
  · rw [List.getD_eq_default _ _ (not_lt.1 hj)]
    exact Nat.zero_le b

theorem CycleEffect.pcBounded {s t : State} {o : Option Instr} (h : CycleEffect s o t) (hpc : s.pc.toNat ≤ 4094)
    (hslots : ∀ a ∈ s.stack, a.toNat ≤ 4096) : t.PcBounded := by
  have hnpc := State.npc_toNat hpc
  cases h with
  | call nnn room =>
    refine ⟨(addressOperand_le nnn).trans (by decide), fun a ha => ?_⟩
    rcases List.mem_or_eq_of_mem_set ha with ha | rfl
    · exact hslots a ha
    · omega
  | ret live => exact ⟨(State.slot_le hslots _).trans (by decide), hslots⟩
  | store bytes fits =>
    rw [State.writeBytes_eq]
    exact ⟨ReachesPc.le (s := s) (.inr (.inl rfl)) hpc, hslots⟩
  | plain hstack _ _ _ _ hreach => exact ⟨hreach.le hpc, hstack ▸ hslots⟩

/-- Settles O50: a completed fetch had `pc` at most 4094, and from there every effect stays within the bound. -/
theorem stepKeepsPcBounded : Obligations.StepKeepsPcBounded := by
  rintro s t ⟨-, hslots⟩ h
  obtain ⟨u, hr, rfl⟩ := step_next h
  obtain ⟨hpc, w, -, he⟩ := runCycle_effect hr
  exact he.pcBounded hpc hslots

/-- Settles O49: the default parameters are legal, `pc` is 512 and every slot is 0. -/
theorem resetMeetsTheInvariant : Obligations.ResetMeetsTheInvariant := by
  refine ⟨State.initial_inv (by decide), by decide, fun a ha => ?_⟩
  rw [List.eq_of_mem_replicate ha]
  decide

/-! ### What can change `I`, `sp` and the slots (spec/10_state.md R29, R30, R31) -/

theorem CycleEffect.writesIndex {s t : State} {o : Option Instr} (h : CycleEffect s o t) (hne : t.I ≠ s.I) :
    WritesIndex o := by
  cases h with
  | call | ret => exact absurd rfl hne
  | store bytes fits =>
    rw [State.writeBytes_eq] at hne
    exact absurd rfl hne
  | plain _ _ _ _ hindex _ => exact hindex.resolve_left hne

theorem CycleEffect.call_or_ret {s t : State} {o : Option Instr} (h : CycleEffect s o t) (hne : t.sp ≠ s.sp) :
    (∃ nnn, o = some (.call nnn)) ∨ o = some .ret := by
  cases h with
  | call nnn => exact .inl ⟨nnn, rfl⟩
  | ret => exact .inr rfl
  | store bytes fits =>
    rw [State.writeBytes_eq] at hne
    exact absurd rfl hne
  | plain _ hsp _ _ _ _ => exact absurd hsp hne

theorem CycleEffect.call_of_stack_ne {s t : State} {o : Option Instr} (h : CycleEffect s o t)
    (hne : t.stack ≠ s.stack) : ∃ nnn, o = some (.call nnn) := by
  cases h with
  | call nnn => exact ⟨nnn, rfl⟩
  | ret => exact absurd rfl hne
  | store bytes fits =>
    rw [State.writeBytes_eq] at hne
    exact absurd rfl hne
  | plain hstack _ _ _ _ _ => exact absurd hstack hne

/-- Settles O52: the effect of the word says which of the three it can change. -/
theorem onlyTheseChangeIndexAndStack : Obligations.OnlyTheseChangeIndexAndStack := by
  intro s t w h hf
  obtain ⟨u, hr, rfl⟩ := step_next h
  obtain ⟨-, w', hf', he⟩ := runCycle_effect hr
  obtain rfl : w = w' := Except.ok.inj (hf.symm.trans hf')
  exact ⟨he.writesIndex, he.call_or_ret, he.call_of_stack_ne⟩

end Sys2Proof.Machine
end

section
/-! PROOF. The flag register (spec/10_state.md R37): what each instruction leaves in `V[15]`. -/

namespace Sys2Proof.Machine

/-- The flag is written last, so it is what `V[15]` holds (D7). -/
theorem flag_of_writeFlagged {s t : State} {x : RegIx} {result flag : Byte}
    (h : s.writeFlagged x result flag = .next t) : t.reg 15 = flag := by
  cases h
  rw [State.advance_reg, State.setResultAndFlag, State.setReg_reg, if_pos rfl]

/-- What DRW leaves in `V[15]` is the display's answer (spec/46_collaborators.md R181). -/
theorem flag_of_drw {s t : State} {x y : RegIx} {n : Nibble} (h : exec (.drw x y n) s = .next t) :
    t.reg 15 = collisionFlag s.input.collided := by
  rcases execDrw_cases x y n s with ⟨-, he⟩ | ⟨-, -, he⟩ <;> rw [he] at h <;> cases h
  rw [State.advance_reg, State.setReg_reg, if_pos rfl]

/-- Settles O28: what each of the six leaves in `V[15]` is a bit. -/
theorem flagWritersLeaveZeroOrOne : Obligations.FlagWritersLeaveZeroOrOne := by
  intro s t x y n i hi h
  have bit : ∀ {b}, t.reg 15 = flagOfBit b → t.reg 15 = 0 ∨ t.reg 15 = 1 := fun hb => hb ▸ flagOfBit_cases _
  simp only [List.mem_cons, List.not_mem_nil, or_false] at hi
  rcases hi with rfl | rfl | rfl | rfl | rfl | rfl
  on_goal 6 => exact bit (flag_of_drw h)
  all_goals exact bit (flag_of_writeFlagged h)

/-- A write to one register changes `V[15]` only when it names it. -/
theorem destination_of_setReg {s t : State} {x : RegIx} {v : Byte} (ht : t.reg 15 = (s.setReg x v).reg 15)
    (hne : t.reg 15 ≠ s.reg 15) : x = 15 := by
  by_contra hx
  rw [ht, State.setReg_reg, if_neg (Ne.symm hx)] at hne
  exact hne rfl

/-- LDM changes `V[15]` only when it loads all sixteen registers. -/
theorem destination_of_ldm {s t : State} {x : RegIx} (h : exec (.ldm x) s = .next t) (hne : t.reg 15 ≠ s.reg 15) :
    x = 15 := by
  rcases execLdm_cases x s with ⟨-, he⟩ | ⟨-, he⟩ <;> rw [he] at h <;> cases h
  by_contra hx
  have hlen : x.val + 1 ≤ 15 := by
    have := x.isLt
    have : x.val ≠ 15 := fun h => hx (Fin.ext h)
    omega
  refine hne ?_
  rw [State.advance_reg, State.loadRegs_reg]
  exact List.getD_eq_default _ _ (by rwa [List.length_map, List.length_range])

/-- WKEY changes `V[15]` only when it names it. -/
theorem destination_of_wkey {s t : State} {x : RegIx} (h : exec (.wkey x) s = .next t) (hne : t.reg 15 ≠ s.reg 15) :
    x = 15 := by
  unfold exec execWkey at h
  injection h with h
  subst h
  split at hne
  · exact absurd rfl hne
  · exact destination_of_setReg rfl hne

/-- A store at `I` writes no register. -/
theorem storeAtIndex_keeps_reg {s t : State} {bytes : List Byte} (h : s.storeAtIndex bytes = .next t) (r : RegIx) :
    t.reg r = s.reg r := by
  rcases storeAtIndex_cases s bytes with ⟨-, he⟩ | ⟨-, he⟩ <;> rw [he] at h <;> cases h
  rw [State.writeBytes_eq]
  rfl

/-- Settles O29: the flag writers are the first case; every other instruction writes no register, or the one it names. -/
theorem onlyTheseChangeTheFlagRegister : Obligations.OnlyTheseChangeTheFlagRegister := by
  intro s t i h hne
  cases i with
  | add x y | sub x y | shr x y | subn x y | shl x y => exact .inl ⟨x, y, 0, by simp⟩
  | drw x y n => exact .inl ⟨x, y, n, by simp⟩
  | ldb x kk | addb x kk | rnd x kk =>
    cases h
    obtain rfl := destination_of_setReg rfl hne
    exact .inr ⟨0, kk, by simp⟩
  | mov x y | or x y | and x y | xor x y =>
    cases h
    obtain rfl := destination_of_setReg rfl hne
    exact .inr ⟨y, 0, by simp⟩
  | lddt x =>
    cases h
    obtain rfl := destination_of_setReg rfl hne
    exact .inr ⟨0, 0, by simp⟩
  | wkey x =>
    obtain rfl := destination_of_wkey h hne
    exact .inr ⟨0, 0, by simp⟩
  | ldm x =>
    obtain rfl := destination_of_ldm h hne
    exact .inr ⟨0, 0, by simp⟩
  | call nnn =>
    rcases execCall_cases nnn s with ⟨-, he⟩ | ⟨-, he⟩ <;> rw [he] at h <;> cases h
    exact absurd rfl hne
  | ret =>
    rcases execRet_cases s with ⟨-, he⟩ | ⟨-, he⟩ <;> rw [he] at h <;> cases h
    exact absurd rfl hne
  | bcd x | stm x => exact absurd (storeAtIndex_keeps_reg h 15) hne
  | _ =>
    cases h
    exact absurd rfl hne

end Sys2Proof.Machine
end

section
/-! PROOF. Dead stack slots (spec/10_state.md R31): no instruction tells apart two states that differ only at and above `sp`. -/

namespace Sys2Proof.Machine

/-- The same state with another list of slots. -/
def State.withStack (s : State) (stack : List Word) : State := { s with stack := stack }

/-- Two results that no instruction can tell apart: the same failure, or next states that no instruction can tell apart. -/
inductive SameVisibleResult : Result → Result → Prop
  | next {t t' : State} (h : SameVisible t t') : SameVisibleResult (.next t) (.next t')
  | fault (f : Fault) : SameVisibleResult (.fault f) (.fault f)
  | refused (r : Refusal) : SameVisibleResult (.refused r) (.refused r)

theorem SameVisible.exists_withStack {s s' : State} (h : SameVisible s s') : ∃ stack, s' = s.withStack stack :=
  ⟨s'.stack, h.1⟩

theorem sameVisible_withStack_iff {s : State} {stack : List Word} :
    SameVisible s (s.withStack stack) ↔
      stack.length = s.stack.length ∧ ∀ j < s.sp, stack.getD j 0 = s.stack.getD j 0 :=
  ⟨fun h => h.2, fun h => ⟨rfl, h⟩⟩

/-- What leaves slots and `sp` alone keeps two states indistinguishable. -/
theorem SameVisible.of_same_stack {s t : State} {stack : List Word} (h : SameVisible s (s.withStack stack))
    (hstack : t.stack = s.stack) (hsp : t.sp = s.sp) : SameVisible t (t.withStack stack) := by
  rwa [sameVisible_withStack_iff, hstack, hsp, ← sameVisible_withStack_iff]

@[simp] theorem State.withStack_effectiveAddress (s : State) (stack : List Word) (j : Nat) :
    (s.withStack stack).effectiveAddress j = s.effectiveAddress j := rfl

@[simp] theorem State.withStack_memRead (s : State) (stack : List Word) (a n : Nat) :
    (s.withStack stack).memRead a n = s.memRead a n := rfl

@[simp] theorem State.withStack_fetch (s : State) (stack : List Word) : (s.withStack stack).fetch = s.fetch := rfl

/-- Storing bytes neither reads nor moves a slot. -/
theorem State.withStack_writeBytes (s : State) (stack : List Word) (a : Nat) (bytes : List Byte) :
    (s.withStack stack).writeBytes a bytes = (s.writeBytes a bytes).withStack stack := by
  induction bytes generalizing s a with
  | nil => rfl
  | cons b bytes ih => exact ih (s.writeByte a b) (a + 1)

/-- A store at `I` goes as it would with other slots. -/
theorem storeAtIndex_withStack (s : State) (stack : List Word) (bytes : List Byte) :
    (s.withStack stack).storeAtIndex bytes = afterCycle (·.withStack stack) (s.storeAtIndex bytes) := by
  rcases storeAtIndex_cases s bytes with ⟨fits, he⟩ | ⟨hout, he⟩ <;>
    rcases storeAtIndex_cases (s.withStack stack) bytes with ⟨fits', he'⟩ | ⟨hout', he'⟩
  · rw [he, he', State.withStack_writeBytes]
    rfl
  · exact absurd fits (not_le.2 hout')
  · exact absurd fits' (not_le.2 hout)
  · rw [he, he']
    rfl

/-- Every instruction but CALL and RET goes as it would with other slots. -/
theorem exec_withStack {i : Instr} (hcall : ∀ nnn, i ≠ .call nnn) (hret : i ≠ .ret) (s : State) (stack : List Word) :
    exec i (s.withStack stack) = afterCycle (·.withStack stack) (exec i s) := by
  cases i with
  | call nnn => exact absurd rfl (hcall nnn)
  | ret => exact absurd rfl hret
  | bcd x => exact storeAtIndex_withStack s stack _
  | stm x => exact storeAtIndex_withStack s stack _
  | drw x y n =>
    simp only [exec, execDrw, State.withStack_memRead, State.withStack_effectiveAddress]
    cases s.memRead (s.effectiveAddress 0) (countOperand n) <;> rfl
  | ldm x =>
    simp only [exec, execLdm, State.withStack_memRead, State.withStack_effectiveAddress]
    cases s.memRead (s.effectiveAddress 0) (blockCount x) <;> rfl
  | wkey x =>
    have hinput : (s.withStack stack).input = s.input := rfl
    simp only [exec, execWkey, hinput]
    cases s.input.anyKey <;> rfl
  | _ => rfl

/-- The instructions that touch neither slots nor `sp` cannot tell the two states apart. -/
theorem exec_sameVisible_of_ne {s : State} {stack : List Word} (h : SameVisible s (s.withStack stack)) {i : Instr}
    (hcall : ∀ nnn, i ≠ .call nnn) (hret : i ≠ .ret) :
    SameVisibleResult (exec i s) (exec i (s.withStack stack)) := by
  rw [exec_withStack hcall hret]
  rcases hr : exec i s with t | f | r
  · have he := exec_effect hr
    have hstack : t.stack = s.stack := by
      by_contra hne
      obtain ⟨nnn, hi⟩ := he.call_of_stack_ne hne
      exact hcall nnn (Option.some.inj hi)
    have hsp : t.sp = s.sp := by
      by_contra hne
      rcases he.call_or_ret hne with ⟨nnn, hi⟩ | hi
      · exact hcall nnn (Option.some.inj hi)
      · exact hret (Option.some.inj hi)
    exact .next (h.of_same_stack hstack hsp)
  · exact .fault f
  · exact .refused r

/-- CALL writes the same address to the same slot of both, so one more slot agrees. -/
theorem exec_call_sameVisible {s : State} {stack : List Word} (h : SameVisible s (s.withStack stack)) (nnn : Addr) :
    SameVisibleResult (exec (.call nnn) s) (exec (.call nnn) (s.withStack stack)) := by
  obtain ⟨hlen, hlive⟩ := sameVisible_withStack_iff.1 h
  rcases execCall_cases nnn s with ⟨room, he⟩ | ⟨full, he⟩ <;>
    rcases execCall_cases nnn (s.withStack stack) with ⟨room', he'⟩ | ⟨full', he'⟩
  · rw [he, he']
    refine .next ⟨rfl, by simpa [State.withStack] using hlen, fun j hj => ?_⟩
    rcases Nat.lt_succ_iff_lt_or_eq.1 hj with hj | rfl
    · have hne : s.sp ≠ j := (Nat.ne_of_lt hj).symm
      simpa [State.slot, State.withStack, List.getD_eq_getElem?_getD, List.getElem?_set_ne hne] using hlive j hj
    · simp [State.slot, State.withStack, State.npc, List.getD_eq_getElem?_getD, List.getElem?_set, hlen]
  · exact absurd room (not_lt.2 full')
  · exact absurd room' (not_lt.2 full)
  · rw [he, he']
    exact .fault _

/-- RET reads the last live slot, on which both agree, and leaves fewer slots live. -/
theorem exec_ret_sameVisible {s : State} {stack : List Word} (h : SameVisible s (s.withStack stack)) :
    SameVisibleResult (exec .ret s) (exec .ret (s.withStack stack)) := by
  obtain ⟨hlen, hlive⟩ := sameVisible_withStack_iff.1 h
  rcases execRet_cases s with ⟨live, he⟩ | ⟨empty, he⟩ <;>
    rcases execRet_cases (s.withStack stack) with ⟨live', he'⟩ | ⟨empty', he'⟩
  · have htop : (s.withStack stack).slot (s.sp - 1) = s.slot (s.sp - 1) := hlive _ (by omega)
    rw [he, he', show (s.withStack stack).sp = s.sp from rfl, htop]
    exact .next ⟨rfl, hlen, fun j hj => hlive j (Nat.lt_of_lt_of_le hj (Nat.sub_le _ _))⟩
  · exact absurd empty' live
  · exact absurd empty live'
  · rw [he, he']
    exact .fault _

theorem exec_sameVisible {s : State} {stack : List Word} (h : SameVisible s (s.withStack stack)) (i : Instr) :
    SameVisibleResult (exec i s) (exec i (s.withStack stack)) := by
  cases i with
  | call nnn => exact exec_call_sameVisible h nnn
  | ret => exact exec_ret_sameVisible h
  | _ => exact exec_sameVisible_of_ne h nofun nofun

/-- Both fetch the same word and run it alike. -/
theorem runCycle_sameVisible {s : State} {stack : List Word} (h : SameVisible s (s.withStack stack)) :
    SameVisibleResult s.runCycle (s.withStack stack).runCycle := by
  rw [State.runCycle, State.runCycle, State.withStack_fetch]
  rcases s.fetch with f | w
  · exact .fault f
  · simp only [State.runWord]
    rcases decodeWord w with - | i
    · exact .next (h.of_same_stack rfl rfl)
    · exact exec_sameVisible (h.of_same_stack (t := s.beginCycle) rfl rfl) i

theorem SameVisible.endCycle {t t' : State} (h : SameVisible t t') : SameVisible t.endCycle t'.endCycle := by
  obtain ⟨stack, rfl⟩ := h.exists_withStack
  exact h.of_same_stack (t := t.endCycle) rfl rfl

theorem SameVisibleResult.after_endCycle {r r' : Result} (h : SameVisibleResult r r') :
    SameVisibleResult (afterCycle State.endCycle r) (afterCycle State.endCycle r') := by
  cases h with
  | next h => exact .next h.endCycle
  | fault f => exact .fault f
  | refused r => exact .refused r

theorem step_sameVisible {s s' : State} (h : SameVisible s s') : SameVisibleResult (step s) (step s') := by
  obtain ⟨stack, rfl⟩ := h.exists_withStack
  exact (runCycle_sameVisible h).after_endCycle

/-- Settles O55: the two steps answer the same failure, or next states that differ in dead slots only. -/
theorem deadStackSlotsAreInvisible : Obligations.DeadStackSlotsAreInvisible := by
  intro s s' h
  generalize step s = r, step s' = r', step_sameVisible h = hr
  cases hr with
  | next h => exact ⟨fun f => ⟨nofun, nofun⟩, fun t ht => ⟨_, rfl, by cases ht; exact h⟩⟩
  | fault f => exact ⟨fun _ => Iff.rfl, nofun⟩
  | refused r => exact ⟨fun _ => ⟨nofun, nofun⟩, nofun⟩

end Sys2Proof.Machine
end

section
/-! PROOF. Reset and power-on (spec/10_state.md R38, R39). -/

namespace Sys2Proof.Machine

/-- Right after reset a byte is the font's or zero. -/
theorem State.hostReset_readByte (s : State) (a : Nat) : s.hostReset.readByte a = resetByte s.config a := rfl

theorem State.initial_reg (c : Config) (r : RegIx) : (State.initial c).reg r = 0 :=
  Vector.getElem_replicate r.isLt

/-- Font byte `j` is what reset leaves at `FONT_BASE + j`. -/
theorem resetByte_font {c : Config} {j : Nat} (hj : j < c.font.length) :
    c.font[j]? = some (resetByte c (c.fontBase + j)) := by
  rw [resetByte, if_pos (Nat.le_add_right _ _), Nat.add_sub_cancel_left, List.getElem?_eq_getElem hj,
    List.getD_eq_getElem _ _ hj]

/-- Outside the font reset leaves zero. -/
theorem resetByte_eq_zero {c : Config} {a : Nat} (h : a < c.fontBase ∨ c.fontBase + c.font.length ≤ a) :
    resetByte c a = 0 := by
  rw [resetByte]
  split
  · exact List.getD_eq_default _ _ (by omega)
  · rfl

/-- Settles O57: every field of the reset state is read off, and memory is what `resetByte` says. -/
theorem resetLeavesTheRunReadyState : Obligations.ResetLeavesTheRunReadyState := by
  intro s
  refine ⟨State.initial_reg s.config, rfl, rfl, rfl, List.length_replicate,
    fun a ha => List.eq_of_mem_replicate ha, rfl, fun j hj => ?_, fun a ha => ?_, rfl, fun s' hconfig => ?_⟩
  · rw [State.hostReset_readByte, resetByte_font hj]
  · rw [State.hostReset_readByte, resetByte_eq_zero ha]
  · rw [State.hostReset, State.hostReset, hconfig]

/-- The entries of `zeroedMemory`: a zero for each address of the font that reset would not leave zero. -/
theorem mem_zeroedMemory {c : Config} {d : Host.Cell} :
    d ∈ zeroedMemory c ↔
      (c.fontBase ≤ d.1 ∧ d.1 < c.fontBase + c.font.length) ∧ resetByte c d.1 ≠ 0 ∧ d.2 = 0 := by
  simp only [zeroedMemory, List.mem_filterMap, List.mem_map, List.mem_range]
  constructor
  · rintro ⟨_, ⟨j, hj, rfl⟩, hd⟩
    split at hd
    · cases hd
    · next hne =>
      cases hd
      exact ⟨⟨Nat.le_add_left _ _, by omega⟩, hne, rfl⟩
  · rintro ⟨⟨hlo, hhi⟩, hne, hzero⟩
    exact ⟨d.1, ⟨d.1 - c.fontBase, by omega, by omega⟩, by rw [if_neg hne, ← hzero]⟩

/-- Where every listed byte is zero, and so is the background of every other address, the memory reads as zero. -/
theorem Memory.read_eq_zero {bg : Nat → Byte} {m : Memory} {a : Nat} (hcells : ∀ d ∈ m, d.2 = 0)
    (hlisted : bg a ≠ 0 → ∃ d ∈ m, d.1 = a) : Memory.read bg m a = 0 := by
  induction m with
  | nil => simpa using hlisted
  | cons d m ih =>
    rw [Memory.read_cons]
    split
    · exact hcells d (by simp)
    · next hne =>
      refine ih (fun e he => hcells e (by simp [he])) fun hbg => ?_
      obtain ⟨e, he, ha⟩ := hlisted hbg
      rcases List.mem_cons.1 he with rfl | he
      · exact absurd ha hne
      · exact ⟨e, he, ha⟩

theorem State.powerOn_readByte (c : Config) (a : Nat) : (State.powerOn c).readByte a = 0 := by
  have hcells : ∀ d ∈ zeroedMemory c, d.2 = 0 := fun d hd => by
    obtain ⟨-, -, hzero⟩ := mem_zeroedMemory.1 hd
    exact hzero
  refine Memory.read_eq_zero hcells fun hne => ?_
  have hfont : ¬ (a < c.fontBase ∨ c.fontBase + c.font.length ≤ a) := fun h => hne (resetByte_eq_zero h)
  exact ⟨(a, 0), mem_zeroedMemory.2 ⟨by omega, hne, rfl⟩, rfl⟩

/-- The font lies below ENTRY, so the entries of power-on memory lie in `0..4095`. -/
theorem zeroedMemory_wf {c : Config} (hc : c.WellFormed) : Memory.wf (resetByte c) (zeroedMemory c) := by
  obtain ⟨hentry, -, -, hfont⟩ := hc
  constructor
  · rw [zeroedMemory, List.pairwise_filterMap, List.pairwise_map]
    refine List.pairwise_lt_range.imp fun hlt d hd e he => ?_
    rw [Option.ite_none_left_eq_some] at hd he
    obtain ⟨-, hd⟩ := hd
    obtain ⟨-, he⟩ := he
    cases hd
    cases he
    exact Nat.add_lt_add_right hlt _
  · intro d hd
    obtain ⟨⟨-, hhi⟩, hne, hzero⟩ := mem_zeroedMemory.1 hd
    exact ⟨show d.1 < 4096 by omega, hzero ▸ hne.symm⟩

theorem State.powerOn_inv {c : Config} (hc : c.WellFormed) : (State.powerOn c).Inv :=
  ⟨hc, List.length_replicate, Nat.zero_le _, zeroedMemory_wf hc⟩

/-- Settles O59: the fields are zero by definition, and `zeroedMemory` hides each font byte that is not zero. -/
theorem powerOnIsAllZero : Obligations.PowerOnIsAllZero := by
  intro c hc
  refine ⟨State.initial_reg c, rfl, rfl, rfl, fun j => ?_, rfl, State.powerOn_readByte c, State.powerOn_inv hc⟩
  have hslots : ∀ a ∈ (State.powerOn c).stack, a.toNat ≤ 0 := fun a ha => by
    rw [List.eq_of_mem_replicate ha]
    decide
  exact BitVec.eq_of_toNat_eq (Nat.le_zero.1 (State.slot_le hslots j))

end Sys2Proof.Machine
end

section
/-! PROOF. Memory (spec/20_memory.md): a byte read is the byte last written (R57), equal memories are equal data (R50; log 13), only BCD and
STM write (R55), and a fetch reads what STM stored (R64). -/

namespace Sys2Proof.Machine

/-- Settles O35, by the law of one written byte. -/
theorem readAfterWrite : Obligations.ReadAfterWrite := State.writeByte_readByte

/-! ### Canonical memories -/

/-- Where the addresses rise, the first entry for an address is the only one. -/
theorem Memory.read_of_mem {bg : Nat → Byte} {m : Memory} (hm : m.Pairwise fun c d => c.1 < d.1) {c : Host.Cell}
    (hc : c ∈ m) : Memory.read bg m c.1 = c.2 := by
  induction hm with
  | nil => cases hc
  | @cons d m hlt _ ih =>
    rw [Memory.read_cons]
    rcases List.mem_cons.1 hc with rfl | hc
    · exact if_pos rfl
    · rw [if_neg (hlt c hc).ne, ih hc]

/-- An address that does not read as the background is listed, with the byte it reads as. -/
theorem Memory.mem_of_read_ne {bg : Nat → Byte} {m : Memory} {a : Nat} (h : Memory.read bg m a ≠ bg a) :
    (a, Memory.read bg m a) ∈ m := by
  induction m with
  | nil => exact absurd rfl h
  | cons d m ih =>
    rw [Memory.read_cons] at h ⊢
    split at h
    · next ha => exact List.mem_cons.2 (.inl (by rw [if_pos ha, ← ha]))
    · next ha => exact List.mem_cons_of_mem d (by rw [if_neg ha]; exact ih h)

/-- What a canonical memory lists: the addresses that do not read as the background, each with its byte. -/
theorem Memory.mem_iff_of_wf {bg : Nat → Byte} {m : Memory} (hm : Memory.wf bg m) {c : Host.Cell} :
    c ∈ m ↔ Memory.read bg m c.1 = c.2 ∧ c.2 ≠ bg c.1 := by
  obtain ⟨hsorted, hcells⟩ := hm
  constructor
  · intro hc
    obtain ⟨-, hne⟩ := hcells c hc
    exact ⟨Memory.read_of_mem hsorted hc, hne⟩
  · rintro ⟨hread, hne⟩
    rw [← hread] at hne
    have hc := Memory.mem_of_read_ne hne
    rwa [hread] at hc

/-- Lists of cells whose addresses rise are equal when they have the same cells. -/
theorem Memory.eq_of_mem_iff {m m' : Memory} (hm : m.Pairwise fun c d => c.1 < d.1)
    (hm' : m'.Pairwise fun c d => c.1 < d.1) (h : ∀ c, c ∈ m ↔ c ∈ m') : m = m' := by
  have : Std.Irrefl fun c d : Host.Cell => c.1 < d.1 := ⟨fun _ => Nat.lt_irrefl _⟩
  have : Std.Antisymm fun c d : Host.Cell => c.1 < d.1 := ⟨fun _ _ hlt hgt => absurd hgt hlt.not_gt⟩
  exact hm.eq_of_mem_iff hm' h

/-- Settles O36: what a canonical memory lists is determined by what it reads as, and in which order by the addresses. -/
theorem canonicalMemoriesAreEqual : Obligations.CanonicalMemoriesAreEqual := by
  intro bg m m' hm hm' hread
  refine Memory.eq_of_mem_iff hm.1 hm'.1 fun c => ?_
  rw [Memory.mem_iff_of_wf hm, Memory.mem_iff_of_wf hm', hread]

/-! ### Who writes memory -/

/-- Every instruction but the two stores leaves memory as it is. -/
theorem exec_keeps_mem {i : Instr} (hbcd : ∀ x, i ≠ .bcd x) (hstm : ∀ x, i ≠ .stm x) {s t : State}
    (h : exec i s = .next t) : t.mem = s.mem := by
  cases i with
  | bcd x => exact absurd rfl (hbcd x)
  | stm x => exact absurd rfl (hstm x)
  | call nnn =>
    rcases execCall_cases nnn s with ⟨-, he⟩ | ⟨-, he⟩ <;> rw [he] at h <;> cases h
    rfl
  | ret =>
    rcases execRet_cases s with ⟨-, he⟩ | ⟨-, he⟩ <;> rw [he] at h <;> cases h
    rfl
  | drw x y n =>
    rcases execDrw_cases x y n s with ⟨-, he⟩ | ⟨-, -, he⟩ <;> rw [he] at h <;> cases h
    rfl
  | ldm x =>
    rcases execLdm_cases x s with ⟨-, he⟩ | ⟨-, he⟩ <;> rw [he] at h <;> cases h
    rfl
  | wkey x =>
    unfold exec execWkey at h
    injection h with h
    subst h
    split <;> rfl
  | _ =>
    cases h
    rfl

/-- A cycle that changes a byte ran BCD or STM; the UNKNOWN no-op changes none. -/
theorem runCycle_store_of_readByte_ne {s t : State} (h : s.runCycle = .next t) {a : Nat}
    (hne : t.readByte a ≠ s.readByte a) :
    ∃ w, s.fetch = .ok w ∧ ∃ x, decodeWord w = some (.bcd x) ∨ decodeWord w = some (.stm x) := by
  rcases s.runCycle_cases with ⟨-, hr⟩ | ⟨w, i, hf, hd, hr⟩ | ⟨w, -, -, hr⟩ <;> rw [hr] at h
  · cases h
  · refine ⟨w, hf, ?_⟩
    by_contra hother
    push Not at hother
    obtain ⟨hconfig, -⟩ := exec_keeps_surroundings h
    have hmem := exec_keeps_mem (fun x hi => (hother x).1 (hi ▸ hd)) (fun x hi => (hother x).2 (hi ▸ hd)) h
    exact hne (State.readByte_congr (s := s) hmem hconfig a)
  · cases h
    exact absurd rfl hne

/-- Settles O51: what follows the cycle writes no memory, so the cycle of the fetched word made the change. -/
theorem onlyStoresChangeMemory : Obligations.OnlyStoresChangeMemory := by
  intro s t w a h hf hne
  obtain ⟨u, hr, rfl⟩ := step_next h
  obtain ⟨w', hf', hstore⟩ := runCycle_store_of_readByte_ne hr (a := a) hne
  obtain rfl : w = w' := Except.ok.inj (hf.symm.trans hf')
  exact hstore

/-! ### Fetching what was stored -/

/-- After STM of `V[0]` to `V[x]` the block fits in memory, and its byte `j` is `V[j]` (spec/44_index_memory.md R164). -/
theorem readByte_of_stm {s t : State} {x : RegIx} (h : exec (.stm x) s = .next t) :
    s.I.toNat + (x.val + 1) ≤ 4096 ∧ ∀ j ≤ x, t.readByte (s.I.toNat + j.val) = s.reg j := by
  rcases execStm_cases x s with ⟨fits, he⟩ | ⟨-, he⟩ <;> rw [he] at h <;> cases h
  refine ⟨fits, fun j hj => ?_⟩
  have hin : s.I.toNat ≤ s.I.toNat + j.val ∧ s.I.toNat + j.val < s.I.toNat + (s.regsUpTo x).length := by
    have : j.val ≤ x.val := hj
    rw [State.regsUpTo_length]
    omega
  rw [State.advance_readByte, State.writeBytes_readByte, if_pos hin, Nat.add_sub_cancel_left,
    List.getD_eq_getElem?_getD, State.regsUpTo_getElem? s x j hj, Option.getD_some]

/-- Settles O15: the two bytes at `I + j` lie inside the stored block, so the fetch there succeeds and reads `V[j]` and `V[j + 1]`. -/
theorem storedCodeIsFetched : Obligations.StoredCodeIsFetched := by
  intro s t x j p h hj hp
  obtain ⟨fits, hread⟩ := readByte_of_stm h
  have hsucc : (j + 1).val = j.val + 1 := Fin.val_add_one_of_lt' (by omega)
  have hlo := hread j (show j.val ≤ x.val by omega)
  have hhi := hread (j + 1) (show (j + 1).val ≤ x.val by omega)
  rcases (t.jump p).fetch_cases with ⟨-, hf⟩ | ⟨hout, -⟩
  · rw [hf, State.jump_readByte, State.jump_readByte, State.jump_pc, hp, hlo, Nat.add_assoc, ← hsucc, hhi]
  · rw [State.jump_pc] at hout
    omega

end Sys2Proof.Machine
end

section
/-! PROOF. Encoding and decoding (spec/30_encoding.md): the fields of a word (R81), the two round trips, the UNKNOWN words (R87) and the opcode
map (R84, R85). -/

namespace Sys2Proof

/-! ### The fields of a word (R81) -/

@[simp] theorem describe_op1_toNat (w : Word) : (describe w).op1.toNat = w.toNat / 4096 := by
  have hw := w.isLt
  rw [describe, field_toNat]
  omega

@[simp] theorem describe_op2_toNat (w : Word) : (describe w).op2.toNat = w.toNat / 256 % 16 := field_toNat w 8 4

@[simp] theorem describe_op3_toNat (w : Word) : (describe w).op3.toNat = w.toNat / 16 % 16 := field_toNat w 4 4

@[simp] theorem describe_op4_toNat (w : Word) : (describe w).op4.toNat = w.toNat % 16 := BitVec.extractLsb'_toNat ..

/-- The overlapping fields agree, as every word is made of four nibbles. -/
theorem describe_wellFormed (w : Word) : (describe w).WellFormed := by
  rw [← wordOfNibbles_describe w, describe_wordOfNibbles]
  exact ⟨rfl, rfl, rfl, rfl, rfl⟩

/-- Settles O1: each field is a slice of the word in numbers, and the overlapping ones are made of the same nibbles. -/
theorem fieldsAreTheWordsBits : Obligations.FieldsAreTheWordsBits := fun w =>
  have low (len : Nat) : (w.extractLsb' 0 len).toNat = w.toNat % 2 ^ len := BitVec.extractLsb'_toNat ..
  ⟨describe_wellFormed w, describe_op1_toNat w, describe_op2_toNat w, describe_op3_toNat w, describe_op4_toNat w,
    describe_op2_toNat w, describe_op3_toNat w, low 12, low 8, low 4⟩

/-- Settles O7, by running the decoder on the nine words. -/
theorem sampleWordsDecode : Obligations.SampleWordsDecode := by
  unfold Obligations.SampleWordsDecode
  decide

/-! ### Decoding what was encoded (R82, R85) -/

/-- The fields of a word of format `A`. -/
theorem describe_encodeA (op : Nibble) (nnn : Addr) :
    describe (encodeA op nnn) =
      ⟨op, nnn.extractLsb' 8 4, nnn.extractLsb' 4 4, nnn.extractLsb' 0 4, (nnn.extractLsb' 8 4).toFin,
        (nnn.extractLsb' 4 4).toFin, nnn, nnn.extractLsb' 4 4 ++ nnn.extractLsb' 0 4, nnn.extractLsb' 0 4⟩ := by
  have hn : nnn.extractLsb' 8 4 ++ (nnn.extractLsb' 4 4 ++ nnn.extractLsb' 0 4) = nnn := by
    have := nnn.isLt
    apply BitVec.eq_of_toNat_eq
    simp only [append_toNat, field_toNat]
    omega
  rw [encodeA_eq, describe_wordOfNibbles, hn]

/-- The fields of a word of format `XK`. -/
theorem describe_encodeXK (op : Nibble) (x : RegIx) (kk : Byte) :
    describe (encodeXK op x kk) =
      ⟨op, selector x, kk.extractLsb' 4 4, kk.extractLsb' 0 4, x, (kk.extractLsb' 4 4).toFin, selector x ++ kk, kk,
        kk.extractLsb' 0 4⟩ := by
  have hk : kk.extractLsb' 4 4 ++ kk.extractLsb' 0 4 = kk := by
    have := kk.isLt
    apply BitVec.eq_of_toNat_eq
    simp only [append_toNat, field_toNat]
    omega
  rw [encodeXK_eq, describe_wordOfNibbles, hk, selector_toFin]

/-- The fixed nibbles of each format lead dispatch to the arm of the instruction. -/
theorem decodeWord_encode (i : Instr) : decodeWord (encode i) = some i := by
  cases i with
  | jp nnn | call nnn | ldi nnn | jpv0 nnn => exact congrArg dispatch (describe_encodeA _ nnn)
  | seb x kk | sneb x kk | ldb x kk | addb x kk | rnd x kk => exact congrArg dispatch (describe_encodeXK _ x kk)
  | _ => exact congrArg dispatch (describe_wordOfNibbles ..)

/-- The decoder reads a word from its two bytes and leaves the bytes after them. -/
theorem decode_bytesOfWord {w : Word} {i : Instr} (h : decodeWord w = some i) (rest : List Byte) :
    decode (bytesOfWord w ++ rest) = .ok (i, rest) := by
  simp only [bytesOfWord, List.cons_append, List.nil_append, decode, wordOfBytes_bytesOfWord, h]

/-- Settles O2: the two bytes make the instruction's word, which decodes to it. -/
theorem decodeInvertsEncode : Obligations.DecodeInvertsEncode := fun i =>
  decode_bytesOfWord (decodeWord_encode i)

/-! ### Encoding what was decoded (R82, R85) -/

/-- A word is made of any four nibbles that are its fields in numbers. -/
theorem wordOfNibbles_of_fields {w : Word} {a b c d : Nibble} (ha : (describe w).op1.toNat = a.toNat)
    (hb : (describe w).op2.toNat = b.toNat) (hc : (describe w).op3.toNat = c.toNat)
    (hd : (describe w).op4.toNat = d.toNat) : wordOfNibbles a b c d = w := by
  rw [← BitVec.eq_of_toNat_eq ha, ← BitVec.eq_of_toNat_eq hb, ← BitVec.eq_of_toNat_eq hc, ← BitVec.eq_of_toNat_eq hd]
  exact wordOfNibbles_describe w

/-- Format `A` keeps all of a word but its first nibble in `nnn`. -/
theorem encodeA_of_op1 {w : Word} {op : Nibble} (h : (describe w).op1.toNat = op.toNat) :
    encodeA op (describe w).nnn = w := by
  obtain ⟨-, -, -, -, hnnn⟩ := describe_wellFormed w
  rw [hnnn]
  exact wordOfNibbles_of_fields h rfl rfl rfl

/-- Format `XK` keeps all of a word but its first nibble in `x` and `kk`. -/
theorem encodeXK_of_op1 {w : Word} {op : Nibble} (h : (describe w).op1.toNat = op.toNat) :
    encodeXK op (describe w).x (describe w).kk = w := by
  obtain ⟨-, -, -, hkk, -⟩ := describe_wellFormed w
  rw [hkk]
  exact wordOfNibbles_of_fields h rfl rfl rfl

/-- Settles O3. The arms of dispatch are numbered as the rows of R85, and in each the nibbles that the instruction does not keep are the ones
that the arm fixed. -/
theorem encodeInvertsDecode : Obligations.EncodeInvertsDecode := by
  intro w i h
  unfold decodeWord dispatch at h
  split at h <;> cases h
  case h_1 | h_2 => exact wordOfNibbles_of_fields ‹_› ‹_› ‹_› ‹_›
  case h_3 | h_4 | h_20 | h_21 => exact encodeA_of_op1 ‹_›
  case h_5 | h_6 | h_8 | h_9 | h_22 => exact encodeXK_of_op1 ‹_›
  case h_7 | h_10 | h_11 | h_12 | h_13 | h_14 | h_15 | h_16 | h_17 | h_18 | h_19 =>
    exact wordOfNibbles_of_fields ‹_› rfl rfl ‹_›
  case h_23 => exact wordOfNibbles_of_fields ‹_› rfl rfl rfl
  case h_24 | h_25 | h_26 | h_27 | h_28 | h_29 | h_30 | h_31 | h_32 | h_33 =>
    exact wordOfNibbles_of_fields ‹_› rfl ‹_› ‹_›

/-! ### The UNKNOWN words (R87) -/

/-- Settles O6, with the nibbles in numbers: no arm of dispatch takes a listed word, and the last arm, which answers UNKNOWN, is left only the six
first nibbles of the table, each with what the arms before it did not take. -/
theorem unknownWordsAreThoseListed : Obligations.UnknownWordsAreThoseListed := by
  intro w
  have hw := w.isLt
  simp only [List.mem_cons, List.not_mem_nil, or_false]
  unfold decodeWord dispatch
  simp only [describe_op1_toNat, describe_op2_toNat, describe_op3_toNat, describe_op4_toNat]
  split
  case h_34 =>
    have hop1 : w.toNat / 4096 = 0x0 ∨ w.toNat / 4096 = 0x5 ∨ w.toNat / 4096 = 0x8 ∨ w.toNat / 4096 = 0x9 ∨
        w.toNat / 4096 = 0xE ∨ w.toNat / 4096 = 0xF := by grind
    rcases hop1 with h0 | h5 | h8 | h9 | hE | hF
    all_goals grind
  all_goals
    simp only [reduceCtorEq, false_iff]
    omega

/-! ### The masks of the opcode map (R85)

Each of the four masks keeps some nibbles of a word whole and drops the others. -/

theorem and_nibbles_toNat (w : Word) (p q r t : Nibble) :
    (w &&& wordOfNibbles p q r t).toNat =
      4096 * ((describe w).op1 &&& p).toNat + 256 * ((describe w).op2 &&& q).toNat +
        16 * ((describe w).op3 &&& r).toNat + ((describe w).op4 &&& t).toNat := by
  conv_lhs => rw [← wordOfNibbles_describe w, Laws.RowMatch.nibbles_and]
  exact wordOfNibbles_toNat ..

theorem nibble_and_F (a : Nibble) : a &&& 0xF#4 = a := BitVec.and_allOnes

theorem and_F000_eq_iff {w p : Word} : w &&& 0xF000 = p ↔ 4096 * (w.toNat / 4096) = p.toNat := by
  rw [← BitVec.toNat_inj, show (0xF000 : Word) = wordOfNibbles 0xF 0 0 0 from rfl, and_nibbles_toNat]
  simp [nibble_and_F, -BitVec.toNat_and]

theorem and_F00F_eq_iff {w p : Word} : w &&& 0xF00F = p ↔ 4096 * (w.toNat / 4096) + w.toNat % 16 = p.toNat := by
  rw [← BitVec.toNat_inj, show (0xF00F : Word) = wordOfNibbles 0xF 0 0 0xF from rfl, and_nibbles_toNat]
  simp [nibble_and_F, -BitVec.toNat_and]

theorem and_F0FF_eq_iff {w p : Word} : w &&& 0xF0FF = p ↔ 4096 * (w.toNat / 4096) + w.toNat % 256 = p.toNat := by
  have hlow : w.toNat % 256 = 16 * (w.toNat / 16 % 16) + w.toNat % 16 := by omega
  rw [← BitVec.toNat_inj, show (0xF0FF : Word) = wordOfNibbles 0xF 0 0xF 0xF from rfl, and_nibbles_toNat]
  simp [nibble_and_F, hlow, Nat.add_assoc, -BitVec.toNat_and]

theorem and_FFFF_eq_iff {w p : Word} : w &&& 0xFFFF = p ↔ w.toNat = p.toNat := by
  rw [← BitVec.toNat_inj, show w &&& 0xFFFF = w from BitVec.and_allOnes]

/-! ### The opcode map (R84, R85) -/

/-- The word of every instruction selects the row of its mnemonic: the family RowMatch, for all constructors. -/
theorem encode_selects_row : ∀ i : Instr, Laws.RowMatch.Statement i
  | .cls => Laws.RowMatch.cls
  | .ret => Laws.RowMatch.ret
  | .jp nnn => Laws.RowMatch.jp nnn
  | .call nnn => Laws.RowMatch.call nnn
  | .seb x kk => Laws.RowMatch.seb x kk
  | .sneb x kk => Laws.RowMatch.sneb x kk
  | .ser x y => Laws.RowMatch.ser x y
  | .ldb x kk => Laws.RowMatch.ldb x kk
  | .addb x kk => Laws.RowMatch.addb x kk
  | .mov x y => Laws.RowMatch.mov x y
  | .or x y => Laws.RowMatch.or x y
  | .and x y => Laws.RowMatch.and x y
  | .xor x y => Laws.RowMatch.xor x y
  | .add x y => Laws.RowMatch.add x y
  | .sub x y => Laws.RowMatch.sub x y
  | .shr x y => Laws.RowMatch.shr x y
  | .subn x y => Laws.RowMatch.subn x y
  | .shl x y => Laws.RowMatch.shl x y
  | .sner x y => Laws.RowMatch.sner x y
  | .ldi nnn => Laws.RowMatch.ldi nnn
  | .jpv0 nnn => Laws.RowMatch.jpv0 nnn
  | .rnd x kk => Laws.RowMatch.rnd x kk
  | .drw x y n => Laws.RowMatch.drw x y n
  | .skp x => Laws.RowMatch.skp x
  | .sknp x => Laws.RowMatch.sknp x
  | .lddt x => Laws.RowMatch.lddt x
  | .wkey x => Laws.RowMatch.wkey x
  | .stdt x => Laws.RowMatch.stdt x
  | .addi x => Laws.RowMatch.addi x
  | .font x => Laws.RowMatch.font x
  | .bcd x => Laws.RowMatch.bcd x
  | .stm x => Laws.RowMatch.stm x
  | .ldm x => Laws.RowMatch.ldm x

/-- A word that decodes selects the row of its instruction's mnemonic, as it is that instruction's word. -/
theorem selects_row_of_decodeWord {w : Word} {i : Instr} (h : decodeWord w = some i) :
    ∃ r ∈ opcodeRows, r.mnemonic = i.mnemonic ∧ w &&& r.mask = r.pattern := by
  obtain ⟨r, hr, hname, hsel⟩ := encode_selects_row i
  rw [OpcodeRow.selects, encodeInvertsDecode w i h, beq_iff_eq] at hsel
  exact ⟨r, hr, hname, hsel⟩

/-- No word of the table of R87 selects a row. -/
theorem unknown_selects_no_row {w : Word} (h : decodeWord w = none) : ∀ r ∈ opcodeRows, w &&& r.mask ≠ r.pattern := by
  have listed := (unknownWordsAreThoseListed w).1 h
  simp only [List.mem_cons, List.not_mem_nil, or_false] at listed
  simp only [opcodeRows, opcodeRowsLow, opcodeRowsAlu, opcodeRowsMid, opcodeRowsF, List.forall_mem_append,
    List.forall_mem_cons, List.not_mem_nil, false_imp_iff, implies_true, and_true, ne_eq, and_F000_eq_iff, and_F00F_eq_iff,
    and_F0FF_eq_iff, and_FFFF_eq_iff, BitVec.reduceToNat]
  and_intros
  all_goals omega

/-- No word selects both rows. -/
def OpcodeRow.Disjoint (r q : OpcodeRow) : Prop :=
  ∀ w : Word, ¬ (w &&& r.mask = r.pattern ∧ w &&& q.mask = q.pattern)

theorem OpcodeRow.Disjoint.symm {r q : OpcodeRow} (h : r.Disjoint q) : q.Disjoint r := fun w hw => h w hw.symm

/-- Two rows are disjoint when their patterns differ in a bit that both masks keep. -/
theorem OpcodeRow.disjoint_of_conflict {r q : OpcodeRow} (h : q.mask &&& r.pattern ≠ r.mask &&& q.pattern) :
    r.Disjoint q := by
  rintro w ⟨hr, hq⟩
  apply h
  rw [← hr, ← hq]
  ac_rfl

theorem opcodeRows_disjoint : opcodeRows.Pairwise OpcodeRow.Disjoint :=
  List.Pairwise.imp OpcodeRow.disjoint_of_conflict (by decide)

/-- Settles O5: a word that selects no row cannot decode, as its instruction's row would be selected. -/
theorem opcodeRowsAreDisjoint : Obligations.OpcodeRowsAreDisjoint := by
  refine ⟨opcodeRows_disjoint, fun w => ⟨unknown_selects_no_row, fun hno => ?_⟩⟩
  refine Option.eq_none_iff_forall_ne_some.2 fun i hi => ?_
  obtain ⟨r, hr, -, hsel⟩ := selects_row_of_decodeWord hi
  exact hno r hr hsel

/-- A word selects at most one row. -/
theorem row_eq_of_selects {w : Word} {r q : OpcodeRow} (hr : r ∈ opcodeRows) (hq : q ∈ opcodeRows)
    (hwr : w &&& r.mask = r.pattern) (hwq : w &&& q.mask = q.pattern) : r = q := by
  have : Std.Symm OpcodeRow.Disjoint := ⟨fun _ _ => OpcodeRow.Disjoint.symm⟩
  by_contra hne
  exact opcodeRows_disjoint.forall hr hq hne w ⟨hwr, hwq⟩

/-- A mnemonic stands in one row only. -/
theorem row_eq_of_mnemonic {r q : OpcodeRow} (hr : r ∈ opcodeRows) (hq : q ∈ opcodeRows)
    (h : r.mnemonic = q.mnemonic) : r = q :=
  List.inj_on_of_nodup_map (f := OpcodeRow.mnemonic) (by decide) hr hq h

/-- Settles O4: a word that selects a row is not UNKNOWN, and the row of its instruction is the row selected, since a word selects one row and a
mnemonic names one row. -/
theorem decodeFollowsTheOpcodeMap : Obligations.DecodeFollowsTheOpcodeMap := by
  intro w r hr
  constructor
  · intro hsel
    obtain ⟨i, hi⟩ := Option.ne_none_iff_exists'.1 fun hnone => unknown_selects_no_row hnone r hr hsel
    obtain ⟨q, hq, hname, hqsel⟩ := selects_row_of_decodeWord hi
    rw [row_eq_of_selects hr hq hsel hqsel]
    exact ⟨i, hi, hname.symm⟩
  · rintro ⟨i, hi, hname⟩
    obtain ⟨q, hq, hqname, hqsel⟩ := selects_row_of_decodeWord hi
    rw [row_eq_of_mnemonic hr hq (hname.symm.trans hqname.symm)]
    exact hqsel

end Sys2Proof
end

section
/-! PROOF. The cycle and the step (spec/40_cycle.md): what fetch reads (R102), what a fetched word runs (R101, R105, R106), what a failed cycle
leaves (R107), which requests are made and when a cycle fails (R109), and the ticks after it (spec/45_timer.md R173). -/

namespace Sys2Proof.Machine

/-! ### What a fetch decides -/

theorem runCycle_of_fetch_error {s : State} {f : Fault} (h : s.fetch = .error f) : s.runCycle = .fault f := by
  simp only [State.runCycle, h, raise]

theorem runCycle_of_decode {s : State} {w : Word} {i : Instr} (hf : s.fetch = .ok w) (hd : decodeWord w = some i) :
    s.runCycle = exec i s.beginCycle := by
  simp only [State.runCycle, hf, State.runWord, hd]

theorem runCycle_of_unknown {s : State} {w : Word} (hf : s.fetch = .ok w) (hd : decodeWord w = none) :
    s.runCycle = execUnknown w s.beginCycle := by
  simp only [State.runCycle, hf, State.runWord, hd]

theorem fetch_of_pc_le {s : State} (h : s.pc.toNat ≤ 4094) :
    s.fetch = .ok (wordOfBytes (s.readByte s.pc.toNat) (s.readByte (s.pc.toNat + 1))) := by
  rcases s.fetch_cases with ⟨-, hf⟩ | ⟨hge, -⟩
  · exact hf
  · omega

theorem fetch_of_pc_ge {s : State} (h : 4095 ≤ s.pc.toNat) : s.fetch = .error .outOfBounds := by
  rcases s.fetch_cases with ⟨hle, -⟩ | ⟨-, hf⟩
  · omega
  · exact hf

/-- Settles O8: the two cases of fetch, and a cycle whose fetch fails is that failure. -/
theorem fetchReadsTheWordAtPc : Obligations.FetchReadsTheWordAtPc := fun _ =>
  ⟨fun h => ⟨_, fetch_of_pc_le h, wordOfBytes_toNat _ _⟩,
    fun h => ⟨fetch_of_pc_ge h, step_fault_iff.2 (runCycle_of_fetch_error (fetch_of_pc_ge h))⟩⟩

/-- Two bytes that decode to an instruction are a word that selects it. -/
theorem decodeWord_of_decode {hi lo : Byte} {i : Instr} {rest rest' : List Byte}
    (h : decode (hi :: lo :: rest) = .ok (i, rest')) : decodeWord (wordOfBytes hi lo) = some i := by
  rw [decode] at h
  split at h
  · next hd =>
    cases h
    exact hd
  · cases h

/-- Settles O9: the cycle is `exec i`, and what the step does after a success is the closed form of `State.endCycle`. -/
theorem stepRunsTheDecodedInstruction : Obligations.StepRunsTheDecodedInstruction := by
  intro s i hpc hd
  have hr : s.runCycle = exec i { s with request := none, unknown := none, started := true } :=
    runCycle_of_decode (fetch_of_pc_le hpc) (decodeWord_of_decode hd)
  rw [step, hr]
  cases exec i { s with request := none, unknown := none, started := true } <;> rfl

/-! ### The host's cycle -/

theorem cycle_of_next {s t : State} (h : s.runCycle = .next t) : s.cycle.1 = t.nextInput := by
  simp only [State.cycle, h]

theorem cycle_of_fault {s : State} {f : Fault} (h : s.runCycle = .fault f) : s.cycle = (s.beginCycle, .failed f) := by
  simp only [State.cycle, h]

/-- Settles O10: the UNKNOWN no-op moves `pc` and reports the word; the ticks after it read the input it began with. -/
theorem unknownWordIsANoOp : Obligations.UnknownWordIsANoOp := by
  intro s w hf hd
  have hr := runCycle_of_unknown hf hd
  refine ⟨({ s.beginCycle with unknown := some w } : State).advance.nextInput, ?_, rfl, rfl, rfl, ?_⟩
  · simp only [State.cycle, hr, execUnknown, State.advance_unknown]
  · rw [step, hr]
    rfl

/-- Settles O12: the host gets back the state the cycle began with, and the step stops where the cycle does. -/
theorem failedCycleChangesNothing : Obligations.FailedCycleChangesNothing := by
  intro s f h
  have hc := cycle_of_fault h
  exact ⟨hc, by rw [hc]; rfl, step_fault_iff.2 h⟩

/-! ### The ticks after a cycle -/

/-- The input of a cycle is the same before and after it. -/
theorem runCycle_keeps_input {s t : State} (h : s.runCycle = .next t) : t.input = s.input := by
  rcases s.runCycle_cases with ⟨-, hr⟩ | ⟨w, i, -, -, hr⟩ | ⟨w, -, -, hr⟩ <;> rw [hr] at h
  · cases h
  · exact (exec_keeps_input h).trans rfl
  · cases h
    rfl

theorem hostRun_replicate_tick (n : Nat) (s : State) : s.hostRun (List.replicate n .tick) = s.ticks n := by
  rw [State.ticks_eq_iterate]
  induction n generalizing s with
  | zero => rfl
  | succ n ih => exact ih s.tick

/-- Settles O14: the cycle moves the inputs on and the ticks then act on `dt`, which is `State.endCycle` with the two exchanged. -/
theorem stepIsCycleThenTicks : Obligations.StepIsCycleThenTicks := by
  intro s t h
  obtain ⟨u, hr, rfl⟩ := step_next h
  calc u.endCycle = u.nextInput.ticks s.input.ticks := by
        rw [State.endCycle, runCycle_keeps_input hr]
        rfl
    _ = s.cycle.1.hostRun (List.replicate s.input.ticks .tick) := by
        rw [hostRun_replicate_tick, cycle_of_next hr]

/-! ### The request of a cycle (R109) -/

/-- The request that a word makes in a state; `none` as its instruction stands for an UNKNOWN word. -/
def State.requestOf (s : State) : Option Instr → Option Request
  | some .cls => some .clear
  | some (.drw x y n) =>
    some (.drawSprite (s.reg x) (s.reg y) ((List.range n.toNat).map fun j => s.readByte (s.I.toNat + j)))
  | some (.rnd _ _) => some .nextByte
  | some (.skp x) | some (.sknp x) => some (.isKeyDown (s.reg x))
  | some (.wkey _) => some .anyKeyDown
  | _ => none

/-- A store at `I` makes no request. -/
theorem storeAtIndex_keeps_request {s t : State} {bytes : List Byte} (h : s.storeAtIndex bytes = .next t) :
    t.request = s.request := by
  rcases storeAtIndex_cases s bytes with ⟨-, he⟩ | ⟨-, he⟩ <;> rw [he] at h <;> cases h
  rw [State.writeBytes_eq]
  rfl

/-- An instruction that completes has made its own request, and where it has none the field is as before. -/
theorem exec_request {i : Instr} {s t : State} (h : exec i s = .next t) (hs : s.request = none) :
    t.request = s.requestOf (some i) := by
  cases i with
  | cls | rnd | skp | sknp =>
    cases h
    rfl
  | drw x y n =>
    rcases execDrw_cases x y n s with ⟨-, he⟩ | ⟨-, -, he⟩ <;> rw [he] at h <;> cases h
    rfl
  | wkey x =>
    unfold exec execWkey at h
    injection h with h
    subst h
    split <;> rfl
  | call nnn =>
    rcases execCall_cases nnn s with ⟨-, he⟩ | ⟨-, he⟩ <;> rw [he] at h <;> cases h
    exact hs
  | ret =>
    rcases execRet_cases s with ⟨-, he⟩ | ⟨-, he⟩ <;> rw [he] at h <;> cases h
    exact hs
  | ldm x =>
    rcases execLdm_cases x s with ⟨-, he⟩ | ⟨-, he⟩ <;> rw [he] at h <;> cases h
    exact hs
  | bcd | stm => exact (storeAtIndex_keeps_request h).trans hs
  | _ =>
    cases h
    exact hs

/-- A cycle begins with no request, so after it the request is that of the fetched word, an UNKNOWN one included. -/
theorem runCycle_request {s t : State} {w : Word} (h : s.runCycle = .next t) (hf : s.fetch = .ok w) :
    t.request = s.requestOf (decodeWord w) := by
  rcases hd : decodeWord w with - | i
  · rw [runCycle_of_unknown hf hd] at h
    cases h
    rfl
  · rw [runCycle_of_decode hf hd] at h
    exact (exec_request h rfl).trans rfl

/-- Settles O53: what follows the cycle keeps the request, which is the fetched word's. -/
theorem requestsFollowTheTable : Obligations.RequestsFollowTheTable := by
  intro s t w h hf
  obtain ⟨u, hr, rfl⟩ := step_next h
  exact (runCycle_request hr hf).trans rfl

/-! ### When a cycle fails (R109, spec/60_exceptions.md R200 to R203) -/

/-- The failure of an instruction in a state, if it fails there. It reads no input. -/
def State.failureOf (s : State) : Instr → Option Fault
  | .call _ => if s.config.stackCapacity ≤ s.sp then some .stackOverflow else none
  | .ret => if s.sp = 0 then some .stackUnderflow else none
  | .drw _ _ n => if 0 < n.toNat ∧ 4096 < s.I.toNat + n.toNat then some .outOfBounds else none
  | .bcd _ => if 4096 < s.I.toNat + 3 then some .outOfBounds else none
  | .stm x | .ldm x => if 4096 < s.I.toNat + (x.val + 1) then some .outOfBounds else none
  | _ => none

/-- The failure of the next cycle, if it fails: the fetch's, or the fetched instruction's. -/
def State.cycleFailure (s : State) : Option Fault :=
  match s.fetch with
  | .error f => some f
  | .ok w => (decodeWord w).bind s.failureOf

/-- A result is a success when there is no failure, and otherwise that failure; it is no refusal. -/
inductive EndsAs : Option Fault → Result → Prop
  | next (t : State) : EndsAs none (.next t)
  | fault (f : Fault) : EndsAs (some f) (.fault f)

/-- What the lemmas on the instructions that can fail give: a success when the condition does not hold, the failure when it does. -/
theorem EndsAs.of_cases {p : Prop} [Decidable p] {f : Fault} {r : Result}
    (h : (¬ p ∧ ∃ t, r = .next t) ∨ (p ∧ r = .fault f)) : EndsAs (if p then some f else none) r := by
  rcases h with ⟨hp, t, rfl⟩ | ⟨hp, rfl⟩
  · rw [if_neg hp]
    exact .next t
  · rw [if_pos hp]
    exact .fault f

theorem exec_endsAs (i : Instr) (s : State) : EndsAs (s.failureOf i) (exec i s) := by
  cases i with
  | call nnn => exact .of_cases ((execCall_cases nnn s).imp_left fun ⟨room, he⟩ => ⟨not_le.2 room, _, he⟩)
  | ret => exact .of_cases ((execRet_cases s).imp_left fun ⟨live, he⟩ => ⟨live, _, he⟩)
  | drw x y n =>
    exact .of_cases ((execDrw_cases x y n s).imp (fun ⟨fits, he⟩ => ⟨by omega, _, he⟩)
      fun ⟨hpos, hout, he⟩ => ⟨⟨hpos, hout⟩, he⟩)
  | bcd x => exact .of_cases ((execBcd_cases x s).imp_left fun ⟨fits, he⟩ => ⟨not_lt.2 fits, _, he⟩)
  | stm x => exact .of_cases ((execStm_cases x s).imp_left fun ⟨fits, he⟩ => ⟨not_lt.2 fits, _, he⟩)
  | ldm x => exact .of_cases ((execLdm_cases x s).imp_left fun ⟨fits, he⟩ => ⟨not_lt.2 fits, _, he⟩)
  | _ => exact .next _

theorem runCycle_endsAs (s : State) : EndsAs s.cycleFailure s.runCycle := by
  rcases hf : s.fetch with f | w
  · rw [runCycle_of_fetch_error hf, State.cycleFailure, hf]
    exact .fault f
  · rcases hd : decodeWord w with - | i
    · rw [runCycle_of_unknown hf hd, State.cycleFailure, hf]
      simp only [hd, Option.bind_none]
      exact .next _
    · rw [runCycle_of_decode hf hd, State.cycleFailure, hf]
      simp only [hd, Option.bind_some]
      exact exec_endsAs i s.beginCycle

theorem step_endsAs (s : State) : EndsAs s.cycleFailure (step s) := by
  rw [step]
  generalize s.cycleFailure = o, s.runCycle = r, runCycle_endsAs s = h
  cases h with
  | next t => exact .next _
  | fault f => exact .fault f

theorem EndsAs.next_iff {o : Option Fault} {r : Result} (h : EndsAs o r) : (∃ t, r = .next t) ↔ o = none := by
  cases h with
  | next t => exact ⟨fun _ => rfl, fun _ => ⟨t, rfl⟩⟩
  | fault f => exact ⟨nofun, nofun⟩

theorem EndsAs.fault_iff {o : Option Fault} {r : Result} (h : EndsAs o r) {f : Fault} : r = .fault f ↔ o = some f := by
  cases h with
  | next t => exact ⟨nofun, nofun⟩
  | fault g => simp

/-- No failure condition reads an input. -/
theorem cycleFailure_inputs (s : State) (ins : List CycleInput) (c : Nat) :
    State.cycleFailure { s with inputs := ins, cycleNo := c } = s.cycleFailure := rfl

/-- Settles O54: a step goes on, or fails with `f`, exactly as the failure of its cycle says, which no input decides. -/
theorem noAnswerDecidesWhetherItGoesOn : Obligations.NoAnswerDecidesWhetherItGoesOn := by
  intro s ins c
  have h := step_endsAs s
  have h' := step_endsAs { s with inputs := ins, cycleNo := c }
  rw [cycleFailure_inputs] at h'
  exact ⟨h.next_iff.trans h'.next_iff.symm, fun f => h.fault_iff.trans h'.fault_iff.symm⟩

/-! ### A placed word (log 16) -/

theorem fetchableAddress_le (s : State) : s.fetchableAddress ≤ 4094 := by
  unfold State.fetchableAddress
  split
  · assumption
  · decide

theorem placeWord_pc_toNat (s : State) (w : Word) : (s.placeWord w).pc.toNat = s.fetchableAddress := by
  have := fetchableAddress_le s
  rw [State.placeWord, State.jump_pc, BitVec.toNat_ofNat, Nat.mod_eq_of_lt (by omega)]

theorem placeWord_readByte (s : State) (w : Word) (b : Nat) :
    (s.placeWord w).readByte b =
      if s.fetchableAddress ≤ b ∧ b < s.fetchableAddress + 2 then
        (bytesOfWord w).getD (b - s.fetchableAddress) 0
      else s.readByte b :=
  s.writeBytes_readByte s.fetchableAddress (bytesOfWord w) b

theorem placeWord_fetch (s : State) (w : Word) : (s.placeWord w).fetch = .ok w := by
  have hle := fetchableAddress_le s
  have hpc := placeWord_pc_toNat s w
  rw [fetch_of_pc_le (by omega), hpc, placeWord_readByte, placeWord_readByte, if_pos (by omega), if_pos (by omega),
    Nat.sub_self, Nat.add_sub_cancel_left]
  exact congrArg _ (wordOfBytes_bytesOfWord w)

/-- Settles O11: the word lies at the fetchable address, high byte first, and `pc` points there. -/
theorem placedWordIsFetched : Obligations.PlacedWordIsFetched := by
  intro s n hn
  have hmod : n % 2 ^ 16 = n := Nat.mod_eq_of_lt hn
  rw [State.withFetchWord, hmod]
  refine ⟨placeWord_fetch s _, fun b hb => ?_, fun hle => BitVec.eq_of_toNat_eq ?_⟩
  · rw [placeWord_pc_toNat] at hb
    rw [placeWord_readByte, if_neg (by omega)]
  · rw [placeWord_pc_toNat, State.fetchableAddress, if_pos hle]

end Sys2Proof.Machine
end

section
/-! PROOF. Control transfer (spec/41_control_transfer.md): the jumps (R120, R123), CALL (R121), RET (R122), and what they do one after another
(R124). -/

namespace Sys2Proof.Machine

/-! ### Targets and return addresses -/

/-- The address after the instruction is a 16-bit sum (spec/40_cycle.md R104). -/
theorem State.npc_toNat_mod (s : State) : s.npc.toNat = (s.pc.toNat + 2) % 65536 := BitVec.toNat_add ..

/-- The 16-bit sum of JPV0 never wraps: it is at most `4095 + 255`. -/
theorem jumpOffset_toNat (nnn : Addr) (v : Byte) : (addressOperand nnn + v.setWidth 16).toNat = nnn.toNat + v.toNat := by
  have := nnn.isLt
  have := v.isLt
  rw [BitVec.toNat_add, addressOperand_toNat, BitVec.toNat_setWidth]
  omega

theorem jump_onlyRegs (s : State) (p : Word) : OnlyRegs [] s (s.jump p) :=
  ⟨⟨fun _ _ => rfl, rfl, ⟨rfl, rfl⟩, rfl, fun _ => rfl, rfl, rfl, rfl, rfl, rfl⟩, rfl⟩

/-- Settles O16: both jumps are `State.jump` to their target, whose 16-bit value is exact. -/
theorem jumpsGoToTheirTarget : Obligations.JumpsGoToTheirTarget := fun s nnn =>
  ⟨⟨encodeA_toNat 1 nnn, _, rfl, addressOperand_toNat nnn, jump_onlyRegs s _⟩,
    encodeA_toNat 0xB nnn, _, rfl, jumpOffset_toNat nnn (s.reg 0), jump_onlyRegs s _⟩

/-! ### The slots after a write to one of them -/

theorem slot_of_set_self {s t : State} {i : Nat} {v : Word} (h : t.stack = s.stack.set i v) (hi : i < s.stack.length) :
    t.slot i = v := by
  rw [State.slot, h, List.getD_eq_getElem?_getD, List.getElem?_set_self hi, Option.getD_some]

theorem slot_of_set_ne {s t : State} {i j : Nat} {v : Word} (h : t.stack = s.stack.set i v) (hj : j ≠ i) :
    t.slot j = s.slot j := by
  simp only [State.slot, h, List.getD_eq_getElem?_getD, List.getElem?_set_ne hj.symm]

/-! ### CALL and RET -/

/-- The state a CALL with a free slot answers. -/
def State.called (s : State) (nnn : Addr) : State :=
  { s with stack := s.stack.set s.sp s.npc, sp := s.sp + 1, pc := addressOperand nnn }

/-- The state a RET with a live slot answers; the slots are as they were (D14). -/
def State.returned (s : State) : State := { s with pc := s.slot (s.sp - 1), sp := s.sp - 1 }

theorem exec_call_of_lt {s : State} (h : s.sp < s.config.stackCapacity) (nnn : Addr) :
    exec (.call nnn) s = .next (s.called nnn) := by
  rcases execCall_cases nnn s with ⟨-, he⟩ | ⟨full, -⟩
  · exact he
  · omega

theorem exec_call_of_le {s : State} (h : s.config.stackCapacity ≤ s.sp) (nnn : Addr) :
    exec (.call nnn) s = .fault .stackOverflow := by
  rcases execCall_cases nnn s with ⟨room, -⟩ | ⟨-, he⟩
  · omega
  · exact he

/-- A CALL that completes had a free slot. -/
theorem called_of_exec_call {s t : State} {nnn : Addr} (h : exec (.call nnn) s = .next t) :
    s.sp < s.config.stackCapacity ∧ t = s.called nnn := by
  rcases execCall_cases nnn s with ⟨room, he⟩ | ⟨-, he⟩ <;> rw [he] at h <;> cases h
  exact ⟨room, rfl⟩

theorem exec_ret_of_ne {s : State} (h : s.sp ≠ 0) : exec .ret s = .next s.returned := by
  rcases execRet_cases s with ⟨-, he⟩ | ⟨empty, -⟩
  · exact he
  · exact absurd empty h

theorem exec_ret_of_eq {s : State} (h : s.sp = 0) : exec .ret s = .fault .stackUnderflow := by
  rcases execRet_cases s with ⟨live, -⟩ | ⟨-, he⟩
  · exact absurd h live
  · exact he

theorem called_slot_sp {s : State} (h : s.sp < s.stack.length) (nnn : Addr) : (s.called nnn).slot s.sp = s.npc :=
  slot_of_set_self rfl h

theorem called_slot_of_ne {s : State} {j : Nat} (hj : j ≠ s.sp) (nnn : Addr) : (s.called nnn).slot j = s.slot j :=
  slot_of_set_ne rfl hj

/-- Settles O17: the push fills the slot at `sp`, which is a listed one, and no other. -/
theorem callPushesAndJumps : Obligations.CallPushesAndJumps := by
  intro s nnn hslots
  refine ⟨encodeA_toNat 2 nnn, fun room => ?_, fun full => exec_call_of_le full nnn⟩
  have he := exec_call_of_lt room nnn
  have hslot : (s.called nnn).slot s.sp = s.npc := called_slot_sp (by omega) nnn
  exact ⟨_, he, hslot ▸ s.npc_toNat_mod, rfl, addressOperand_toNat nnn, List.length_set, fun j hj => called_slot_of_ne hj nnn,
    fun _ _ => rfl, rfl, rfl, fun _ => rfl, exec_keeps_surroundings he, rfl⟩

/-- Settles O18: the pop reads the slot below `sp` and moves `sp` alone. -/
theorem returnPops : Obligations.ReturnPops := by
  intro s
  refine ⟨rfl, fun live => ?_, exec_ret_of_eq⟩
  have he := exec_ret_of_ne live
  exact ⟨_, he, rfl, Nat.sub_add_cancel (Nat.pos_of_ne_zero live), rfl, fun _ _ => rfl, rfl, rfl, fun _ => rfl,
    exec_keeps_surroundings he, rfl⟩

/-! ### One after another (R124) -/

/-- Settles O19: the slot that RET reads is the one CALL has just filled. -/
theorem returnResumesAfterTheCall : Obligations.ReturnResumesAfterTheCall := by
  intro s t nnn hslots hcall
  obtain ⟨room, rfl⟩ := called_of_exec_call hcall
  have hret : exec .ret (s.called nnn) = .next (s.called nnn).returned := exec_ret_of_ne (Nat.succ_ne_zero s.sp)
  have hpc : (s.called nnn).returned.pc = s.npc := called_slot_sp (by omega) nnn
  exact ⟨_, hret, hpc ▸ s.npc_toNat_mod, rfl, fun j hj => called_slot_of_ne hj.ne nnn, rfl, rfl, rfl, fun _ => rfl,
    rfl, rfl, rfl, rfl, rfl⟩

theorem execAll_cons_of_next {i : Instr} {s t : State} (h : exec i s = .next t) (is : List Instr) :
    execAll (i :: is) s = execAll is t := by
  rw [execAll, h]

/-- Settles O20, by induction on the calls: each takes one of the free slots, and with none left the next one overflows. -/
theorem callsNestToCapacity : Obligations.CallsNestToCapacity := by
  intro s targets
  induction targets generalizing s with
  | nil => exact fun (h : s.sp = s.config.stackCapacity) => ⟨s, rfl, h, fun nnn => exec_call_of_le h.ge nnn⟩
  | cons nnn targets ih =>
    intro h
    rw [List.length_cons] at h
    have hcall := exec_call_of_lt (s := s) (by omega) nnn
    have hrest : (s.called nnn).sp + targets.length = (s.called nnn).config.stackCapacity :=
      (Nat.succ_add_eq_add_succ s.sp targets.length).trans h
    rw [List.map_cons, execAll_cons_of_next hcall]
    exact ih (s.called nnn) hrest

end Sys2Proof.Machine
end

section
/-! PROOF. The conditional skips (spec/42_skips.md R136): the four that compare (R130 to R133) and the two that ask the keypad (R134, R135). -/

namespace Sys2Proof

/-- A word of format `X` in numbers, its fixed nibbles first, as the opcode map prints its pattern (R85). -/
theorem encodeX_toNat_pattern (op : Nibble) (x : RegIx) (c d : Nibble) :
    (encodeX op x c d).toNat = (4096 * op.toNat + 16 * c.toNat + d.toNat) + 256 * x.val := by
  rw [encodeX_toNat]
  omega

end Sys2Proof

namespace Sys2Proof.Machine

/-! ### What a skip does -/

/-- The rule of R136 for a condition stated as a proposition. Both moves are 16-bit sums (R104), so they hold for a `pc` that wraps too. -/
theorem skipIf_movedOn {p : Prop} [Decidable p] {c : Bool} (hc : c = true ↔ p) (s : State) :
    MovedOn (if p then 4 else 2) s (s.skipIf c) := by
  rw [MovedOn, State.skipIf_pc, State.npc]
  by_cases hp : p
  · rw [if_pos hp, if_pos (hc.2 hp), BitVec.add_assoc]
    exact BitVec.toNat_add ..
  · rw [if_neg hp, if_neg (mt hc.1 hp)]
    exact BitVec.toNat_add ..

theorem skipIf_onlyRegs (s : State) (c : Bool) : OnlyRegs [] s (s.skipIf c) := jump_onlyRegs s _

/-- A skip after a request reads `pc` from the state before it. -/
theorem ask_skipIf_movedOn {p : Prop} [Decidable p] {c : Bool} (hc : c = true ↔ p) (s : State) (q : Request) :
    MovedOn (if p then 4 else 2) s ((s.ask q).skipIf c) := skipIf_movedOn hc (s.ask q)

theorem ask_skipIf_onlyRegsAndRequest (s : State) (q : Request) (c : Bool) :
    OnlyRegsAndRequest [] s ((s.ask q).skipIf c) := (skipIf_onlyRegs (s.ask q) c).1

/-! ### The comparisons in numbers -/

theorem byte_beq_iff_toNat (a b : Byte) : (a == b) = true ↔ a.toNat = b.toNat := by
  rw [beq_iff_eq, BitVec.toNat_inj]

theorem byte_bne_iff_toNat (a b : Byte) : (a != b) = true ↔ a.toNat ≠ b.toNat := by
  rw [bne_iff_ne, BitVec.toNat_ne_iff_ne]

/-! ### The six skips -/

/-- Settles O21: each comparing skip is `State.skipIf` on its comparison of bytes, which is the comparison of their numbers. -/
theorem comparingSkips : Obligations.ComparingSkips := fun s x y kk =>
  ⟨⟨encodeXK_toNat 3 x kk, _, rfl, skipIf_movedOn (byte_beq_iff_toNat _ _) s, skipIf_onlyRegs s _⟩,
    ⟨encodeXK_toNat 4 x kk, _, rfl, skipIf_movedOn (byte_bne_iff_toNat _ _) s, skipIf_onlyRegs s _⟩,
    ⟨encodeXYN_toNat 5 x y 0, _, rfl, skipIf_movedOn (byte_beq_iff_toNat _ _) s, skipIf_onlyRegs s _⟩,
    encodeXYN_toNat 9 x y 0, _, rfl, skipIf_movedOn (byte_bne_iff_toNat _ _) s, skipIf_onlyRegs s _⟩

/-- Settles O22: each key skip records its request and is then `State.skipIf` on the answer, or on its negation. -/
theorem keySkipsObeyTheKeypad : Obligations.KeySkipsObeyTheKeypad := fun s x =>
  ⟨⟨encodeX_toNat_pattern 0xE x 9 0xE, _, rfl, rfl, ask_skipIf_movedOn Iff.rfl s _, ask_skipIf_onlyRegsAndRequest s _ _⟩,
    encodeX_toNat_pattern 0xE x 0xA 1, _, rfl, rfl, ask_skipIf_movedOn (iff_of_eq (Bool.not_eq_true' _)) s _,
    ask_skipIf_onlyRegsAndRequest s _ _⟩

end Sys2Proof.Machine
end

section
/-! PROOF. Register loads and the ALU (spec/43_load_alu.md): the instructions that write `V[x]` alone (R141 to R146), and those that write `V[x]`
and then the flag (R140, R147 to R151). -/

namespace Sys2Proof

/-- A word of format `XY` in numbers, its fixed nibbles first, as the opcode map prints its pattern (R85). -/
theorem encodeXYN_toNat_pattern (op : Nibble) (x y : RegIx) (n : Nibble) :
    (encodeXYN op x y n).toNat = (4096 * op.toNat + n.toNat) + 256 * x.val + 16 * y.val := by
  rw [encodeXYN_toNat]
  omega

end Sys2Proof

namespace Sys2Proof.Machine

/-! ### What a write to registers leaves, and the advance after it -/

/-- The advance moves `pc` from where the instruction found it, by a 16-bit sum (spec/40_cycle.md R104). -/
theorem advance_movedOn {s t : State} (h : t.pc = s.pc) : MovedOn 2 s t.advance := by
  rw [MovedOn, ← h]
  exact State.npc_toNat_mod t

/-- An instruction that writes the register file alone changes no more than the registers it writes. -/
theorem advance_onlyRegs {written : List RegIx} {s : State} {V : Vector Byte 16}
    (h : SameRegsBut written s { s with V := V }) : OnlyRegs written s ({ s with V := V } : State).advance :=
  ⟨⟨h, rfl, ⟨rfl, rfl⟩, rfl, fun _ => rfl, rfl, rfl, rfl, rfl, rfl⟩, rfl⟩

theorem setReg_advance_reg (s : State) (x : RegIx) (v : Byte) : (s.setReg x v).advance.reg x = v := by
  rw [State.advance_reg, State.setReg_reg, if_pos rfl]

theorem setReg_advance_reg_of_ne (s : State) {x r : RegIx} (v : Byte) (h : r ≠ x) :
    (s.setReg x v).advance.reg r = s.reg r := by
  rw [State.advance_reg, State.setReg_reg, if_neg h]

theorem setReg_advance_onlyRegs (s : State) (x : RegIx) (v : Byte) : OnlyRegs [x] s (s.setReg x v).advance :=
  advance_onlyRegs fun _ hr => setReg_advance_reg_of_ne s v (List.ne_of_not_mem_cons hr)

/-- What a result and a flag leave (R140): the flag in `V[15]`, the result in `V[x]` where the flag did not replace it. -/
theorem writeFlagged_effect (s : State) (x : RegIx) (result flag : Byte) :
    ∃ t, s.writeFlagged x result flag = .next t ∧ (x ≠ 15 → t.reg x = result) ∧ t.reg 15 = flag ∧
      MovedOn 2 s t ∧ OnlyRegs [x, 15] s t := by
  refine ⟨_, rfl, fun hx => ?_, flag_of_writeFlagged rfl, advance_movedOn rfl, advance_onlyRegs fun r hr => ?_⟩
  · exact (setReg_advance_reg_of_ne (s.setReg x result) flag hx).trans (setReg_advance_reg s x result)
  · obtain ⟨hx, hflag⟩ : r ≠ x ∧ r ≠ 15 := by simpa using hr
    exact (setReg_advance_reg_of_ne (s.setReg x result) flag hflag).trans (setReg_advance_reg_of_ne s result hx)

/-! ### The flags in numbers (spec/10_state.md R37) -/

theorem carryFlag_toNat (a b : Byte) : (carryFlag a b).toNat = if 255 < a.toNat + b.toNat then 1 else 0 := by
  simp only [carryFlag, flagOfBit_toNat, decide_eq_true_eq]

theorem notBorrowFlag_toNat (a b : Byte) : (notBorrowFlag a b).toNat = if a.toNat < b.toNat then 0 else 1 := by
  simp only [notBorrowFlag, flagOfBit_toNat, decide_eq_true_eq, ite_not]

theorem lowBitFlag_toNat (a : Byte) : (lowBitFlag a).toNat = a.toNat % 2 := by
  rw [lowBitFlag, flagOfBit_toNat, BitVec.getLsbD, Nat.testBit_zero]
  simp only [decide_eq_true_eq]
  split <;> omega

theorem highBitFlag_toNat (a : Byte) : (highBitFlag a).toNat = a.toNat / 128 := by
  have := a.isLt
  rw [highBitFlag, flagOfBit_toNat, BitVec.getLsbD, Nat.testBit_eq_decide_div_mod_eq]
  simp only [decide_eq_true_eq]
  split <;> omega

/-! ### The results in numbers -/

/-- The 8-bit difference is the difference of integers, wrapped at 256. -/
theorem byte_sub_toNat (a b : Byte) : ((a - b).toNat : Int) = ((a.toNat : Int) - b.toNat) % 256 := by
  have := a.isLt
  have := b.isLt
  rw [BitVec.toNat_sub]
  omega

theorem byte_shiftRight_one_toNat (a : Byte) : (a >>> 1).toNat = a.toNat / 2 := by
  rw [BitVec.toNat_ushiftRight, Nat.shiftRight_eq_div_pow, Nat.pow_one]

theorem byte_shiftLeft_one_toNat (a : Byte) : (a <<< 1).toNat = a.toNat * 2 % 256 := by
  rw [BitVec.toNat_shiftLeft, Nat.shiftLeft_eq, Nat.pow_one]

/-! ### The instructions that write no flag -/

/-- Settles O24: each of the four writes its result, whose bits are those of the operation, to `V[x]` alone. -/
theorem copyAndBitwiseLogic : Obligations.CopyAndBitwiseLogic := fun s x y =>
  ⟨⟨encodeXYN_toNat_pattern 8 x y 0, _, rfl, setReg_advance_reg s x _, advance_movedOn rfl,
      setReg_advance_onlyRegs s x _⟩,
    ⟨encodeXYN_toNat_pattern 8 x y 1, _, rfl, fun b => by rw [setReg_advance_reg, BitVec.getLsbD_or],
      advance_movedOn rfl, setReg_advance_onlyRegs s x _⟩,
    ⟨encodeXYN_toNat_pattern 8 x y 2, _, rfl, fun b => by rw [setReg_advance_reg, BitVec.getLsbD_and],
      advance_movedOn rfl, setReg_advance_onlyRegs s x _⟩,
    encodeXYN_toNat_pattern 8 x y 3, _, rfl, fun b => by rw [setReg_advance_reg, BitVec.getLsbD_xor],
    advance_movedOn rfl, setReg_advance_onlyRegs s x _⟩

/-- Settles O23: both write `V[x]` alone; ADDB's sum is that of 8-bit numbers. -/
theorem immediatesLoadAndAdd : Obligations.ImmediatesLoadAndAdd := fun s x kk =>
  ⟨⟨encodeXK_toNat 6 x kk, _, rfl, setReg_advance_reg s x kk, advance_movedOn rfl, setReg_advance_onlyRegs s x _⟩,
    encodeXK_toNat 7 x kk, _, rfl, by rw [setReg_advance_reg, BitVec.toNat_add],
    fun hx => setReg_advance_reg_of_ne s _ hx.symm, advance_movedOn rfl, setReg_advance_onlyRegs s x _⟩

/-! ### The instructions that write the flag last -/

/-- Settles O25: the carry speaks of the sum of the numbers, the result of its low eight bits. -/
theorem addRegistersSetsCarry : Obligations.AddRegistersSetsCarry := by
  intro s x y
  obtain ⟨t, ht, hresult, hflag, hpc, hframe⟩ :=
    writeFlagged_effect s x (s.reg x + s.reg y) (carryFlag (s.reg x) (s.reg y))
  exact ⟨encodeXYN_toNat_pattern 8 x y 4, t, ht, fun hx => by rw [hresult hx, BitVec.toNat_add],
    by rw [hflag, carryFlag_toNat], hpc, hframe⟩

/-- What SUB and SUBN share: they subtract the same two registers in the two orders. -/
theorem subtraction_effect (s : State) (x : RegIx) (a b : Byte) :
    ∃ t, s.writeFlagged x (a - b) (notBorrowFlag a b) = .next t ∧
      (x ≠ 15 → ((t.reg x).toNat : Int) = ((a.toNat : Int) - b.toNat) % 256) ∧
      (t.reg 15).toNat = (if a.toNat < b.toNat then 0 else 1) ∧ MovedOn 2 s t ∧ OnlyRegs [x, 15] s t := by
  obtain ⟨t, ht, hresult, hflag, hpc, hframe⟩ := writeFlagged_effect s x (a - b) (notBorrowFlag a b)
  exact ⟨t, ht, fun hx => by rw [hresult hx, byte_sub_toNat], by rw [hflag, notBorrowFlag_toNat], hpc, hframe⟩

/-- Settles O26: SUB takes `V[y]` from `V[x]`, SUBN `V[x]` from `V[y]`. -/
theorem subtractionsSetNotBorrow : Obligations.SubtractionsSetNotBorrow := fun s x y =>
  ⟨⟨encodeXYN_toNat_pattern 8 x y 5, subtraction_effect s x (s.reg x) (s.reg y)⟩,
    encodeXYN_toNat_pattern 8 x y 7, subtraction_effect s x (s.reg y) (s.reg x)⟩

/-- Settles O27: neither shift reads its `y`, so the state it answers is the same for every `y`. -/
theorem shiftsByOnePlace : Obligations.ShiftsByOnePlace := by
  intro s x y
  constructor
  · obtain ⟨t, ht, hresult, hflag, hpc, hframe⟩ := writeFlagged_effect s x (s.reg x >>> 1) (lowBitFlag (s.reg x))
    exact ⟨encodeXYN_toNat_pattern 8 x y 6, t, ht, fun hx => by rw [hresult hx, byte_shiftRight_one_toNat],
      by rw [hflag, lowBitFlag_toNat], hpc, hframe, fun _ => ht⟩
  · obtain ⟨t, ht, hresult, hflag, hpc, hframe⟩ := writeFlagged_effect s x (s.reg x <<< 1) (highBitFlag (s.reg x))
    exact ⟨encodeXYN_toNat_pattern 8 x y 0xE, t, ht, fun hx => by rw [hresult hx, byte_shiftLeft_one_toNat],
      by rw [hflag, highBitFlag_toNat], hpc, hframe, fun _ => ht⟩

end Sys2Proof.Machine
end

section
/-! PROOF. The index register and the memory transfers (spec/44_index_memory.md): the instructions that write `I` (R160 to R162), the two stores
at `I` (R163, R164), the load from `I` (R165), and a load right after a store (R167). -/

namespace Sys2Proof.Machine

/-! ### The instructions that write `I` -/

theorem setIndex_advance_onlyRegs (s : State) (v : Word) : OnlyRegs [] (s.setIndex v) (s.setIndex v).advance :=
  jump_onlyRegs (s.setIndex v) _

/-- The 16-bit sum of ADDI wraps at 65536 and nowhere below (D9; log 10). -/
theorem add_regAsWord_toNat (s : State) (x : RegIx) :
    (s.I + s.regAsWord x).toNat = (s.I.toNat + (s.reg x).toNat) % 65536 := by
  have := (s.reg x).isLt
  rw [BitVec.toNat_add, State.regAsWord, BitVec.toNat_setWidth]
  omega

/-- The glyph address of any byte fits in 16 bits. -/
theorem glyphAddress_toNat (v : Byte) : (glyphAddress v).toNat = v.toNat * 5 := by
  have := v.isLt
  rw [glyphAddress, BitVec.toNat_ofNat]
  omega

/-- Settles O30: each of the three is `State.setIndex` to a value whose number is the one stated. -/
theorem indexRegisterInstructions : Obligations.IndexRegisterInstructions := fun s x nnn =>
  ⟨⟨encodeA_toNat 0xA nnn, _, rfl, addressOperand_toNat nnn, advance_movedOn rfl, setIndex_advance_onlyRegs s _⟩,
    ⟨encodeX_toNat_pattern 0xF x 1 0xE, _, rfl, add_regAsWord_toNat s x, advance_movedOn rfl,
      setIndex_advance_onlyRegs s _⟩,
    encodeX_toNat_pattern 0xF x 2 9, _, rfl, glyphAddress_toNat (s.reg x), advance_movedOn rfl,
    setIndex_advance_onlyRegs s _⟩

/-! ### The bound of a transfer -/

/-- A transfer that succeeds up to the end of memory and fails past it, with the bound on its last address `a + n`
(spec/20_memory.md R51, R52). -/
theorem transfer_of_cases {a n : Nat} {r : Result} {t : State} {p : State → Prop}
    (h : (a + (n + 1) ≤ 4096 ∧ r = .next t) ∨ (4096 < a + (n + 1) ∧ r = .fault .outOfBounds))
    (hp : r = .next t → p t) :
    (a + n ≤ 4095 → ∃ u, r = .next u ∧ p u) ∧ (4095 < a + n → r = .fault .outOfBounds) := by
  rcases h with ⟨fits, he⟩ | ⟨hout, he⟩
  · exact ⟨fun _ => ⟨t, he, hp he⟩, fun _ => by omega⟩
  · exact ⟨fun _ => by omega, fun _ => he⟩

/-! ### The stores -/

/-- The state a store at `I` answers when its bytes fit (`storeAtIndex_cases`). -/
def State.storedAtIndex (s : State) (bytes : List Byte) : State := (s.writeBytes s.I.toNat bytes).advance

theorem storedAtIndex_readByte (s : State) {bytes : List Byte} {j : Nat} {b : Byte} (h : bytes[j]? = some b) :
    (s.storedAtIndex bytes).readByte (s.effectiveAddress j) = b := by
  obtain ⟨hj, -⟩ := List.getElem?_eq_some_iff.1 h
  rw [State.storedAtIndex, State.advance_readByte, State.writeBytes_readByte, State.effectiveAddress,
    if_pos (by omega), Nat.add_sub_cancel_left, List.getD_eq_getElem?_getD, h, Option.getD_some]

theorem storedAtIndex_sameMemoryBut (s : State) (bytes : List Byte) :
    SameMemoryBut (s.effectiveAddress 0) bytes.length s (s.storedAtIndex bytes) := fun b hb => by
  rw [State.effectiveAddress] at hb
  rw [State.storedAtIndex, State.advance_readByte, State.writeBytes_readByte, if_neg (by omega)]

theorem storedAtIndex_movedOn (s : State) (bytes : List Byte) : MovedOn 2 s (s.storedAtIndex bytes) :=
  advance_movedOn (congrArg (·.pc) (s.writeBytes_eq s.I.toNat bytes))

theorem storedAtIndex_onlyRegs (s : State) (bytes : List Byte) :
    OnlyRegs [] { s with mem := (s.storedAtIndex bytes).mem } (s.storedAtIndex bytes) := by
  rw [State.storedAtIndex, State.advance_mem, ← State.writeBytes_eq]
  exact jump_onlyRegs _ _

/-- A digit of BCD reads back as the number it is: it is below 256. -/
theorem storedDigit_toNat (s : State) {x : RegIx} {j n : Nat}
    (h : (decimalDigits (s.reg x))[j]? = some (BitVec.ofNat 8 n)) (hn : n < 256) :
    ((s.storedAtIndex (decimalDigits (s.reg x))).readByte (s.effectiveAddress j)).toNat = n := by
  rw [storedAtIndex_readByte s h, BitVec.toNat_ofNat, Nat.mod_eq_of_lt hn]

/-- Settles O31: the bytes stored are the three digits, and the last of them lies at `I + 2`. -/
theorem bcdStoresThreeDigits : Obligations.BcdStoresThreeDigits := by
  intro s x
  have hv := (s.reg x).isLt
  refine ⟨encodeX_toNat_pattern 0xF x 3 3, transfer_of_cases (execBcd_cases x s) fun _ => ?_⟩
  exact ⟨storedDigit_toNat s rfl (by omega), storedDigit_toNat s rfl (by omega), storedDigit_toNat s rfl (by omega),
    storedAtIndex_sameMemoryBut s (decimalDigits (s.reg x)), storedAtIndex_movedOn s _, storedAtIndex_onlyRegs s _⟩

/-- Settles O32: the bytes stored are `V[0]` to `V[x]`, and the last of them lies at `I + x`. -/
theorem storeRegistersStoresTheBlock : Obligations.StoreRegistersStoresTheBlock := by
  intro s x
  refine ⟨encodeX_toNat_pattern 0xF x 5 5, transfer_of_cases (execStm_cases x s) fun he => ?_⟩
  obtain ⟨-, hread⟩ := readByte_of_stm he
  have hmem := storedAtIndex_sameMemoryBut s (s.regsUpTo x)
  rw [State.regsUpTo_length] at hmem
  exact ⟨hread, hmem, storedAtIndex_movedOn s _, storedAtIndex_onlyRegs s _⟩

/-! ### The load -/

/-- The state LDM answers when its block fits (`execLdm_cases`). -/
def State.loadedFromIndex (s : State) (x : RegIx) : State :=
  (s.loadRegs ((List.range (x.val + 1)).map fun j => s.readByte (s.I.toNat + j))).advance

theorem loadedFromIndex_reg_of_le (s : State) {x j : RegIx} (h : j ≤ x) :
    (s.loadedFromIndex x).reg j = s.readByte (s.effectiveAddress j.val) := by
  have hj : j.val < x.val + 1 := Nat.lt_succ_of_le h
  rw [State.loadedFromIndex, State.advance_reg, State.loadRegs_reg, List.getD_eq_getElem?_getD, List.getElem?_map,
    List.getElem?_range hj, Option.map_some, Option.getD_some, State.effectiveAddress]

theorem loadedFromIndex_reg_of_lt (s : State) {x j : RegIx} (h : x < j) : (s.loadedFromIndex x).reg j = s.reg j := by
  rw [State.loadedFromIndex, State.advance_reg, State.loadRegs_reg]
  exact List.getD_eq_default _ _ (by rw [List.length_map, List.length_range]; exact h)

theorem loadedFromIndex_onlyRegs (s : State) (x : RegIx) :
    OnlyRegs ((List.finRange 16).filter (· ≤ x)) s (s.loadedFromIndex x) :=
  advance_onlyRegs fun _ hr => loadedFromIndex_reg_of_lt s (by simpa using hr)

/-- Settles O33: the block read is loaded from `V[0]` on, and it ends at `V[x]`. -/
theorem loadRegistersLoadsTheBlock : Obligations.LoadRegistersLoadsTheBlock := fun s x =>
  ⟨encodeX_toNat_pattern 0xF x 6 5, transfer_of_cases (execLdm_cases x s) fun _ =>
    ⟨fun _ => loadedFromIndex_reg_of_le s, fun _ => loadedFromIndex_reg_of_lt s, advance_movedOn rfl,
      loadedFromIndex_onlyRegs s x⟩⟩

/-! ### A load right after a store -/

/-- A store at `I` leaves `I` as it is (R166). -/
theorem storeAtIndex_keeps_I {s t : State} {bytes : List Byte} (h : s.storeAtIndex bytes = .next t) : t.I = s.I := by
  rcases storeAtIndex_cases s bytes with ⟨-, he⟩ | ⟨-, he⟩ <;> rw [he] at h <;> cases h
  rw [State.writeBytes_eq]
  rfl

/-- Two states that read the same registers have the same register file. -/
theorem V_eq_of_reg {s t : State} (h : ∀ r, t.reg r = s.reg r) : t.V = s.V :=
  Vector.ext fun i hi => h ⟨i, hi⟩

/-- Settles O34: `I` is the same for both, so the block loaded is the one just stored; the registers above it were never written. -/
theorem loadAfterStoreRestores : Obligations.LoadAfterStoreRestores := by
  intro s t x h
  obtain ⟨fits, hstored⟩ := readByte_of_stm h
  have hI : t.I = s.I := storeAtIndex_keeps_I h
  have haddr : ∀ j, t.effectiveAddress j = s.I.toNat + j := fun j => by rw [State.effectiveAddress, hI]
  obtain ⟨-, hload, -⟩ := loadRegistersLoadsTheBlock t x
  obtain ⟨u, hu, hlow, hhigh, -, ⟨-, hIu, -, -, hmem, -⟩, -⟩ := hload (by rw [haddr]; omega)
  refine ⟨u, hu, V_eq_of_reg fun r => ?_, hIu.trans hI, hmem⟩
  rcases le_or_gt r x with hr | hr
  · rw [hlow r hr, haddr, hstored r hr]
  · rw [hhigh r hr, storeAtIndex_keeps_reg h]

end Sys2Proof.Machine
end

section
/-! PROOF. The delay timer (spec/45_timer.md): the instructions that read and set it (R170, R171), the tick (R172), and that nothing else writes
it (R173). -/

namespace Sys2Proof.Machine

/-! ### LDDT and STDT -/

theorem setTimer_advance_onlyRegs (s : State) (v : Byte) : OnlyRegs [] (s.setTimer v) (s.setTimer v).advance :=
  jump_onlyRegs (s.setTimer v) _

/-- Settles O37: LDDT is `State.setReg` of `dt`, STDT is `State.setTimer` of `V[x]`. -/
theorem timerInstructions : Obligations.TimerInstructions := fun s x =>
  ⟨⟨encodeX_toNat_pattern 0xF x 0 7, _, rfl, setReg_advance_reg s x s.dt, advance_movedOn rfl,
      setReg_advance_onlyRegs s x _⟩,
    encodeX_toNat_pattern 0xF x 1 5, _, rfl, rfl, advance_movedOn rfl, setTimer_advance_onlyRegs s _⟩

/-! ### The tick -/

theorem State.tick_eq_ticks_one (s : State) : s.tick = s.ticks 1 := (s.ticks_eq_iterate 1).symm

/-- Settles O38: a tick is the closed form of `State.ticks` for one tick. -/
theorem tickFloorsAtZero : Obligations.TickFloorsAtZero := by
  intro s
  rw [State.tick_eq_ticks_one]
  exact ⟨timerAfter_toNat 1 s.dt, rfl⟩

/-! ### Who sets `dt` -/

/-- WKEY asks; with no key held that is all, otherwise the answer goes to `V[x]` and `pc` moves on (spec/46_collaborators.md R184). -/
theorem execWkey_cases (x : RegIx) (s : State) :
    (s.input.anyKey = none ∧ exec (.wkey x) s = .next (s.ask .anyKeyDown)) ∨
    ∃ k, s.input.anyKey = some k ∧ exec (.wkey x) s = .next ((s.ask .anyKeyDown).setReg x k).advance := by
  rcases hk : s.input.anyKey with - | k
  · exact .inl ⟨rfl, by simp only [exec, execWkey, hk]⟩
  · exact .inr ⟨k, rfl, by simp only [exec, execWkey, hk]⟩

/-- A store at `I` leaves the timer as it is. -/
theorem storeAtIndex_keeps_dt {s t : State} {bytes : List Byte} (h : s.storeAtIndex bytes = .next t) : t.dt = s.dt := by
  rcases storeAtIndex_cases s bytes with ⟨-, he⟩ | ⟨-, he⟩ <;> rw [he] at h <;> cases h
  rw [State.writeBytes_eq]
  rfl

/-- Every instruction but STDT leaves the timer as it is. -/
theorem exec_keeps_dt {i : Instr} (hstdt : ∀ x, i ≠ .stdt x) {s t : State} (h : exec i s = .next t) : t.dt = s.dt := by
  cases i with
  | stdt x => exact absurd rfl (hstdt x)
  | bcd | stm => exact storeAtIndex_keeps_dt h
  | call nnn =>
    rcases execCall_cases nnn s with ⟨-, he⟩ | ⟨-, he⟩ <;> rw [he] at h <;> cases h
    rfl
  | ret =>
    rcases execRet_cases s with ⟨-, he⟩ | ⟨-, he⟩ <;> rw [he] at h <;> cases h
    rfl
  | drw x y n =>
    rcases execDrw_cases x y n s with ⟨-, he⟩ | ⟨-, -, he⟩ <;> rw [he] at h <;> cases h
    rfl
  | ldm x =>
    rcases execLdm_cases x s with ⟨-, he⟩ | ⟨-, he⟩ <;> rw [he] at h <;> cases h
    rfl
  | wkey x =>
    rcases execWkey_cases x s with ⟨-, he⟩ | ⟨k, -, he⟩ <;> rw [he] at h <;> cases h
    all_goals rfl
  | _ =>
    cases h
    rfl

/-- A cycle of a word that is not STDT leaves the timer as it is, the UNKNOWN no-op too. -/
theorem runCycle_keeps_dt {s t : State} {w : Word} (h : s.runCycle = .next t) (hf : s.fetch = .ok w)
    (hstdt : ∀ x, decodeWord w ≠ some (.stdt x)) : t.dt = s.dt := by
  rcases hd : decodeWord w with - | i
  · rw [runCycle_of_unknown hf hd] at h
    cases h
    rfl
  · rw [runCycle_of_decode hf hd] at h
    exact (exec_keeps_dt (fun x hi => hstdt x (hi ▸ hd)) h).trans rfl

/-- Settles O39: the cycle leaves `dt` and its input as they are, so the ticks after it are all that acts on `dt`. -/
theorem timerGrowsOnlyBySetting : Obligations.TimerGrowsOnlyBySetting := by
  intro s t w h hf hstdt
  obtain ⟨u, hr, rfl⟩ := step_next h
  calc u.endCycle.dt.toNat = u.dt.toNat - u.input.ticks := timerAfter_toNat u.input.ticks u.dt
    _ = s.dt.toNat - s.input.ticks := by rw [runCycle_keeps_dt hr hf hstdt, runCycle_keeps_input hr]

end Sys2Proof.Machine
end

section
/-! PROOF. The collaborators (spec/46_collaborators.md): CLS (R183), DRW (R181), RND (R182), and WKEY, one cycle of it (R184), under the keypad's
contract (R180), and cycle after cycle (R185). -/

namespace Sys2Proof.Machine

/-! ### An instruction that asks, then writes one register -/

/-- After a request, a register written and the advance leave what `setReg_advance_onlyRegs` says; the request is the one more change. -/
theorem ask_setReg_advance_onlyRegsAndRequest (s : State) (q : Request) (x : RegIx) (v : Byte) :
    OnlyRegsAndRequest [x] s ((s.ask q).setReg x v).advance :=
  (setReg_advance_onlyRegs (s.ask q) x v).1

/-! ### CLS, DRW and RND -/

/-- Settles O40: CLS records its request and is then the advance. -/
theorem clearScreenOnlyAsks : Obligations.ClearScreenOnlyAsks := fun s =>
  ⟨rfl, _, rfl, rfl, advance_movedOn rfl, (jump_onlyRegs (s.ask .clear) _).1⟩

theorem collisionFlag_toNat (collided : Bool) : (collisionFlag collided).toNat = if collided then 1 else 0 :=
  flagOfBit_toNat collided

/-- Entry `j` of a sprite read from `I` on is the byte at the effective address of offset `j` (R166). -/
theorem sprite_getElem? (s : State) {j n : Nat} (hj : j < n) :
    ((List.range n).map fun i => s.readByte (s.I.toNat + i))[j]? = some (s.readByte (s.effectiveAddress j)) := by
  rw [List.getElem?_map, List.getElem?_range hj, Option.map_some, State.effectiveAddress]

/-- Settles O41: the two cases of DRW are those of its checked read, and the bounds on the last byte exclude each other. -/
theorem drawSendsTheSprite : Obligations.DrawSendsTheSprite := by
  intro s x y n
  refine ⟨encodeXYN_toNat 0xD x y n, ?_⟩
  rcases execDrw_cases x y n s with ⟨fits, he⟩ | ⟨hpos, hout, he⟩
  · refine ⟨fun _ => ⟨_, _, he, rfl, ?_, fun j hj => sprite_getElem? s hj, ?_, advance_movedOn rfl,
      ask_setReg_advance_onlyRegsAndRequest s _ flagReg _⟩, fun ⟨_, _⟩ => by omega⟩
    · rw [List.length_map, List.length_range]
    · rw [flag_of_drw he, collisionFlag_toNat]
  · exact ⟨fun fits => by omega, fun _ => he⟩

/-- Settles O42: what RND writes to `V[x]` is the answer masked by `kk`, so its bits are the answer's inside `kk` and none outside. -/
theorem randomIsMasked : Obligations.RandomIsMasked := by
  intro s x kk
  refine ⟨encodeXK_toNat 0xC x kk, _, rfl, rfl, fun b => ?_, ?_, advance_movedOn rfl,
    ask_setReg_advance_onlyRegsAndRequest s .nextByte x _⟩
  · rw [setReg_advance_reg, BitVec.getLsbD_and]
  · rw [setReg_advance_reg, BitVec.and_assoc, BitVec.and_not_self]
    exact BitVec.and_zero

/-! ### One cycle of WKEY (R184) -/

theorem exec_wkey_of_none {s : State} (h : s.input.anyKey = none) (x : RegIx) :
    exec (.wkey x) s = .next (s.ask .anyKeyDown) := by
  rcases execWkey_cases x s with ⟨-, he⟩ | ⟨k, hk, -⟩
  · exact he
  · cases h.symm.trans hk

theorem exec_wkey_of_some {s : State} {k : Byte} (h : s.input.anyKey = some k) (x : RegIx) :
    exec (.wkey x) s = .next ((s.ask .anyKeyDown).setReg x k).advance := by
  rcases execWkey_cases x s with ⟨hk, -⟩ | ⟨k', hk, he⟩
  · cases h.symm.trans hk
  · cases h.symm.trans hk
    exact he

/-- Settles O43: without a key the request is all; with one, it is followed by the write to `V[x]` and the advance. -/
theorem awaitKeyPolls : Obligations.AwaitKeyPolls := by
  intro s x
  refine ⟨encodeX_toNat_pattern 0xF x 0 0xA, ?_⟩
  rcases hk : s.input.anyKey with - | k
  · have he := exec_wkey_of_none hk x
    exact ⟨_, he, rfl, fun _ => ⟨rfl, exec_keeps_surroundings he⟩, nofun⟩
  · refine ⟨_, exec_wkey_of_some hk x, rfl, nofun, fun k' hk' => ?_⟩
    cases hk'
    exact ⟨setReg_advance_reg (s.ask .anyKeyDown) x k, advance_movedOn rfl,
      ask_setReg_advance_onlyRegsAndRequest s .anyKeyDown x k⟩

/-! ### Under the keypad's contract (R180) -/

/-- With some key held, the keypad's contract makes its answer the lowest held one. -/
theorem KeypadContract.answers_lowest {held : RegIx → Bool} {asked : Byte} {i : CycleInput}
    (h : KeypadContract held asked i) (hheld : ∃ k, held k = true) :
    ∃ b, i.anyKey = some b ∧ ∃ k : RegIx, b.toNat = k.val ∧ held k = true ∧ ∀ j, held j = true → k ≤ j := by
  obtain ⟨-, hany⟩ := h
  rcases hk : i.anyKey with - | b <;> rw [hk] at hany
  · obtain ⟨k, hheld⟩ := hheld
    cases hheld.symm.trans (hany k)
  · exact ⟨b, rfl, hany⟩

/-- Settles O45: the contract excludes the cycle that waits, and the answer stored is the lowest held key. -/
theorem awaitKeyStoresTheLowestKey : Obligations.AwaitKeyStoresTheLowestKey := by
  intro s x held asked hcontract hheld
  obtain ⟨b, hb, k, hbk, hk, hlowest⟩ := hcontract.answers_lowest hheld
  refine ⟨_, exec_wkey_of_some hb x, k, ?_, hk, hlowest⟩
  rw [setReg_advance_reg, hbk]

/-! ### Cycle after cycle of WKEY (R185) -/

theorem input_of_inputs_cons {s : State} {i : CycleInput} {is : List CycleInput} (h : s.inputs = i :: is) :
    s.input = i := by
  rw [State.input, h, List.headD_cons]

theorem cycle_of_wkey_none {s : State} {w : Word} {x : RegIx} (hf : s.fetch = .ok w)
    (hd : decodeWord w = some (.wkey x)) (hk : s.input.anyKey = none) :
    s.cycle.1 = (s.beginCycle.ask .anyKeyDown).nextInput :=
  cycle_of_next ((runCycle_of_decode hf hd).trans (exec_wkey_of_none (s := s.beginCycle) hk x))

theorem cycle_of_wkey_some {s : State} {w : Word} {x : RegIx} {k : Byte} (hf : s.fetch = .ok w)
    (hd : decodeWord w = some (.wkey x)) (hk : s.input.anyKey = some k) :
    s.cycle.1 = ((s.beginCycle.ask .anyKeyDown).setReg x k).advance.nextInput :=
  cycle_of_next ((runCycle_of_decode hf hd).trans (exec_wkey_of_some (s := s.beginCycle) hk x))

theorem hostRun_replicate_cycle_succ (s : State) (n : Nat) :
    s.hostRun (List.replicate (n + 1) .cycle) = s.cycle.1.hostRun (List.replicate n .cycle) := rfl

/-- Settles O44, by induction on the waiting cycles: each leaves the Processor State, and so the fetched word, as it is, and takes one input. -/
theorem awaitKeyWaitsUnchanged : Obligations.AwaitKeyWaitsUnchanged := by
  intro s w x waiting last rest k hf hd hin hwait hlast
  induction waiting generalizing s with
  | nil =>
    have hk : s.input.anyKey = some k := by rw [input_of_inputs_cons hin, hlast]
    refine ⟨rfl, ?_⟩
    rw [hostRun_replicate_cycle_succ, cycle_of_wkey_some hf hd hk]
    rfl
  | cons i waiting ih =>
    obtain ⟨hi, hwait⟩ := List.forall_mem_cons.1 hwait
    have hk : s.input.anyKey = none := by rw [input_of_inputs_cons hin, hi]
    have hrest : s.inputs.tail = waiting ++ last :: rest := congrArg List.tail hin
    rw [List.length_cons, hostRun_replicate_cycle_succ, hostRun_replicate_cycle_succ, cycle_of_wkey_none hf hd hk]
    exact ih (s.beginCycle.ask .anyKeyDown).nextInput hf hrest hwait

end Sys2Proof.Machine
end

section
/-! PROOF. The exceptions (spec/60_exceptions.md): which instruction fails, how and exactly when (R200 to R203), and that a failed cycle fails again
(R208). Both read the failure condition of an instruction or of a cycle that `State.failureOf` and `State.cycleFailure` state. -/

namespace Sys2Proof.Machine

/-- Ticks write `dt`, which no failure condition reads. -/
theorem cycleFailure_ticks (s : State) (n : Nat) : (s.ticks n).cycleFailure = s.cycleFailure := rfl

/-- Settles O13: a step fails with the failure of its cycle, which neither ticks nor inputs change. -/
theorem failureRecurs : Obligations.FailureRecurs := by
  intro s f n ins c h
  refine (step_endsAs _).fault_iff.2 ?_
  rw [cycleFailure_inputs, cycleFailure_ticks]
  exact (step_endsAs s).fault_iff.1 h

theorem EndsAs.ne_refused {o : Option Fault} {r : Result} (h : EndsAs o r) (q : Refusal) : r ≠ .refused q := by
  cases h <;> exact nofun

/-- A conditional failure is `g` exactly when it is that failure and its condition holds, in whatever form the condition is written. -/
theorem ite_fault_eq_some_iff {p q : Prop} [Decidable p] {f g : Fault} (h : p ↔ q) :
    (if p then some f else none) = some g ↔ g = f ∧ q := by
  rw [Option.ite_none_right_eq_some, Option.some_inj, and_comm, eq_comm, h]

/-- Settles O46: an instruction ends as `State.failureOf` says; its bound on the first address after the bytes is R52's bound on the last one. -/
theorem instructionsFailExactlyWhen : Obligations.InstructionsFailExactlyWhen := by
  refine fun i s => ⟨fun f => (exec_endsAs i s).fault_iff.trans ?_, (exec_endsAs i s).ne_refused⟩
  cases i with
  | call | ret => exact ite_fault_eq_some_iff Iff.rfl
  | drw | bcd | stm | ldm => exact ite_fault_eq_some_iff (by omega)
  | _ => exact iff_false_intro nofun

end Sys2Proof.Machine
end

section
/-! PROOF. Reset and hazards (spec/70_reset_and_hazards.md): the load of an image (R233), and the jump to itself that ends a run (R235). -/

namespace Sys2Proof.Machine

/-! ### Bytes stored in a row -/

theorem writeBytes_readByte_add (s : State) (a : Nat) (bytes : List Byte) {j : Nat} (hj : j < bytes.length) :
    bytes[j]? = some ((s.writeBytes a bytes).readByte (a + j)) := by
  rw [State.writeBytes_readByte, if_pos (by omega), Nat.add_sub_cancel_left, List.getD_eq_getElem _ _ hj,
    List.getElem?_eq_getElem hj]

theorem writeBytes_sameMemoryBut (s : State) (a : Nat) (bytes : List Byte) :
    SameMemoryBut a bytes.length s (s.writeBytes a bytes) := fun b hb => by
  rw [State.writeBytes_readByte, if_neg (by omega)]

/-! ### The load (R233) -/

theorem load_of_fits {s : State} {image : List Byte} (hs : s.started = false) (fits : s.config.ImageFits image) :
    s.load image = some (s.writeBytes s.config.entry.toNat image) :=
  if_pos ⟨hs, fits⟩

theorem load_of_not_fits {s : State} {image : List Byte} (h : ¬ s.config.ImageFits image) : s.load image = none :=
  if_neg fun ⟨_, fits⟩ => h fits

theorem load_of_started {s : State} (h : s.started = true) (image : List Byte) : s.load image = none :=
  if_neg fun ⟨hs, _⟩ => Bool.noConfusion (hs.symm.trans h)

/-- Settles O58: a load that is not refused stores the image at ENTRY, and a cycle, failed or not, closes the loader's port. -/
theorem loadPlacesTheImage : Obligations.LoadPlacesTheImage := fun s image =>
  ⟨fun hs fits => ⟨_, load_of_fits hs fits, fun _ => writeBytes_readByte_add s _ image,
      writeBytes_sameMemoryBut s _ image, s.writeBytes_eq _ image⟩,
    fun hout => load_of_not_fits (not_le.2 hout), fun hs => load_of_started hs image,
    load_of_started s.cycle_started image, rfl⟩

/-! ### The end of a run (R235) -/

/-- The jump writes to `pc` what it holds, so the cycle leaves nothing but the marks of its beginning. -/
theorem runCycle_of_atEnd {s : State} (h : s.AtEnd) : s.runCycle = .next s.beginCycle := by
  obtain ⟨w, nnn, hf, hd, hpc⟩ := h
  have htarget : addressOperand nnn = s.pc := BitVec.eq_of_toNat_eq ((addressOperand_toNat nnn).trans hpc)
  calc s.runCycle = .next (s.beginCycle.jump (addressOperand nnn)) := runCycle_of_decode hf hd
    _ = .next (s.beginCycle.jump s.pc) := by rw [htarget]
    _ = .next s.beginCycle := rfl

theorem cycle_of_atEnd {s : State} (h : s.AtEnd) : s.cycle = (s.beginCycle.nextInput, .ok) := by
  simp only [State.cycle, runCycle_of_atEnd h, State.beginCycle_unknown]

theorem step_of_atEnd {s : State} (h : s.AtEnd) : step s = .next s.beginCycle.endCycle := by
  simp only [step, runCycle_of_atEnd h, afterCycle]

/-- Neither a cycle nor a step writes what `State.AtEnd` reads: `pc`, memory and the parameters. -/
theorem atEnd_nextInput {s : State} (h : s.AtEnd) : s.beginCycle.nextInput.AtEnd := h

theorem atEnd_endCycle {s : State} (h : s.AtEnd) : s.beginCycle.endCycle.AtEnd := h

theorem hostRun_cycles_of_atEnd {s : State} (h : s.AtEnd) (n : Nat) :
    (s.hostRun (List.replicate n .cycle)).toProcessor = s.toProcessor ∧ (s.hostRun (List.replicate n .cycle)).AtEnd := by
  induction n generalizing s with
  | zero => exact ⟨rfl, h⟩
  | succ n ih =>
    rw [hostRun_replicate_cycle_succ, cycle_of_atEnd h]
    exact ih (atEnd_nextInput h)

theorem run_succ_of_next {M : Host.Core} {s t : M.State} (h : M.step s = .next t) (n : Nat) :
    M.run (n + 1) s = M.run n t := by
  rw [Host.Core.run, h]

/-- The ticks that a step adds may change `dt`, but never the end of the run. -/
theorem safeFor_of_atEnd {s : State} (h : s.AtEnd) (n : Nat) : s.SafeFor n := by
  induction n generalizing s with
  | zero => exact ⟨s, rfl⟩
  | succ n ih =>
    obtain ⟨t, ht⟩ := ih (atEnd_endCycle h)
    exact ⟨t, (run_succ_of_next (M := core) (step_of_atEnd h) n).trans ht⟩

/-- Settles O56: every state of such a run is at its end again. -/
theorem jumpToSelfIsAFixedPoint : Obligations.JumpToSelfIsAFixedPoint := by
  intro s n h
  obtain ⟨hkept, hend⟩ := hostRun_cycles_of_atEnd h n
  exact ⟨hkept, by rw [cycle_of_atEnd hend], safeFor_of_atEnd h n⟩

end Sys2Proof.Machine
end
